-- ==== Sys2Proof/Word.lean ====
section
/-! DEFINITION. The byte, the arithmetic primitives of 00_scope.md R11, and the names of results and errors. -/

namespace Sys2Proof

/-- A byte (R9). -/
abbrev Byte := BitVec 8

/-- A byte sequence, index 0 first in transmission order (R10, R72). -/
abbrev Bytes := List Byte

/-- R11: 8-bit wraparound addition. -/
def add8 (a b : Byte) : Byte := a + b

/-- R11: the bitwise complement, `255 - a`. -/
def not8 (a : Byte) : Byte := ~~~a

/-- R11: `(256 - a) mod 256`. -/
def neg8 (a : Byte) : Byte := -a

/-- R11: `n mod 256`, "masked to one byte". -/
def trunc8 (n : Nat) : Byte := BitVec.ofNat 8 n

/-- The eleven error kinds (60_exceptions.md R240), in the order of their codes 1 to 11. -/
inductive ErrorKind where
  | invalidPayloadSize
  | malformedPreamble
  | lengthChecksumMismatch
  | payloadChecksumMismatch
  | unexpectedResponse
  | invalidParameterType
  | noDevice
  | multipleCardsDetected
  | uidTooLong
  | invalidBlockSize
  | handshakeTimeout
  deriving DecidableEq, Repr

/-- A result (00_scope.md R15): three channels, none encoded as another. -/
inductive Result where
  | bytes (s : Bytes)
  | ackSentinel
  | noTarget
  deriving DecidableEq, Repr

/-- How an operation ends (R14, R15): with a result, or by raising one error kind. -/
inductive Ending where
  | result (r : Result)
  | raised (k : ErrorKind)
  deriving DecidableEq, Repr

end Sys2Proof
end

