-- ==== Sys2Proof/Config.lean ====
section
/-! DEFINITION. The hard-wired constants (10_state.md R50), the implementation parameters (00_scope.md R7) and
the free values. A parameter the spec leaves OPEN is an opaque constant with no body: nothing can be proved of
its value (log 4). -/

namespace Sys2Proof.Config

/-- R1: the block's name and version string. -/
def blockName : String := "HSU framer"
def versionString : String := "hsu-framer/doc-v7"

/-- R50 constants. -/
def preamble : Byte := 0x00#8
def startCode : Bytes := [0x00#8, 0xFF#8]
def postamble : Byte := 0x00#8
/-- R50, R104: the acknowledgement sequence. -/
def ack : Bytes := [0x00#8, 0x00#8, 0xFF#8, 0x00#8, 0xFF#8, 0x00#8]
/-- R50, R111: direction tags. -/
def tagH2D : Byte := 0xD4#8
def tagD2H : Byte := 0xD5#8
/-- R50: the checksum's seed. -/
def seed : Byte := 0xFF#8
def payloadMin : Nat := 1
def payloadMax : Nat := 254
/-- R7: baseline line rate in symbols per second; outside the block, no rule reads it (R300). -/
def baud : Nat := 115200

/-- R121: the operation select codes. -/
def opChecksum : BitVec 3 := 1#3
def opEncode : BitVec 3 := 2#3
def opDecode : BitVec 3 := 3#3
def opSendAwaitAck : BitVec 3 := 4#3
def opCall : BitVec 3 := 5#3
def opInit : BitVec 3 := 6#3

/-- R113: the four command codes the source lists; a response code is the code plus one (R112). -/
def cmdFirmwareVersion : Byte := 0x02#8
def cmdSamConfiguration : Byte := 0x14#8
def cmdListPassiveTarget : Byte := 0x4A#8
def cmdDataExchange : Byte := 0x40#8
def rspFirmwareVersion : Byte := 0x03#8
def rspSamConfiguration : Byte := 0x15#8
def rspListPassiveTarget : Byte := 0x4B#8
def rspDataExchange : Byte := 0x41#8

end Sys2Proof.Config

namespace Sys2Proof

/-- The parameters the spec leaves OPEN (R7), as one argument of the block's steps. -/
structure Params where
  /-- `POLL_INTERVAL_MS` (D7). -/
  pollIntervalMs : Nat
  /-- `MAX_RETRIES` (D9): `none` is the baseline. -/
  maxRetries : Option Nat
  /-- `ACC_CLEAR_ON_RETRY` (D10). -/
  accClearOnRetry : Bool
  /-- `WAKEUP` (D11). -/
  wakeup : Bytes
  /-- `ACK_TIMEOUT_DEFAULT` (D8), `TW = 16` bits. -/
  ackTimeoutDefault : BitVec 16
  /-- `RETRY_INTERVAL_DEFAULT` (D8), `TW = 16` bits. -/
  retryIntervalDefault : BitVec 16
  deriving DecidableEq, Repr

/-- R7: the one bound on an OPEN parameter, `POLL_INTERVAL_MS` a natural number `≥ 1`. -/
def Params.Admissible (p : Params) : Prop := 1 ≤ p.pollIntervalMs

/-- R180: the number of polls in a window, `max(1, ceil(timeout / interval))`. -/
def Params.npoll (p : Params) (timeoutMs : Nat) : Nat :=
  max 1 ((timeoutMs + p.pollIntervalMs - 1) / p.pollIntervalMs)

namespace Config

/-- `POLL_INTERVAL_MS - 1`, free: the interval itself is any natural number from 1 up. -/
opaque pollIntervalLessOne : Nat
opaque maxRetries : Option Nat
opaque accClearOnRetry : Bool
opaque wakeup : Bytes
opaque ackTimeoutDefault : BitVec 16
opaque retryIntervalDefault : BitVec 16

/-- The parameters of this machine, every one of them free (R7). -/
def params : Params where
  pollIntervalMs := pollIntervalLessOne + 1
  maxRetries := maxRetries
  accClearOnRetry := accClearOnRetry
  wakeup := wakeup
  ackTimeoutDefault := ackTimeoutDefault
  retryIntervalDefault := retryIntervalDefault

/-- R48, R60, U1: what the receive queue holds after reset is any byte sequence (log 5). -/
opaque rxqAtReset : Bytes

/-- R60: `STOP` is an input; its level at reset is the host's (log 6). -/
opaque stopAtReset : Bool

/-- The bytes that a host write of `ILEN` adds to `IBUF` when it makes the buffer longer: the spec gives no
value for them (log 8). -/
opaque freeByte : Nat → Byte

/-- Consumer layer (44_cardops_consumers.md): parameter bytes the source does not give (N8), free (log 12). -/
opaque samParams : Bytes
opaque readSubCommand : Byte
opaque writeSubCommand : Byte

/-- R201, N9: how text parameters become bytes is not named (log 13). -/
opaque textBytes : String → Bytes

end Config

end Sys2Proof
end

