-- ==== Sys2Proof/Machine/Codec.lean ====
section
/-! DEFINITION. The byte-sequence functions of the block: checksum (40_checksum.md), the frame codec
(41_framecodec.md), the acknowledgement detector and `strip` (42_ackhandshake.md R175, R176), and the response
check of the command channel (43_commandchannel.md R204, R205, R207). All are pure. -/

namespace Sys2Proof.Machine

/-- R140: the accumulator after the bytes of a sequence, added in index order. -/
def accumulate (acc : Byte) : Bytes → Byte
  | [] => acc
  | b :: rest => accumulate (add8 acc b) rest

/-- R140: the checksum of a byte sequence. -/
def checksum (data : Bytes) : Byte := not8 (accumulate Config.seed data)

/-- R10: the sum of the elements as a natural number. -/
def byteSum : Bytes → Nat
  | [] => 0
  | b :: rest => b.toNat + byteSum rest

/-- R106: the length checksum of a length byte. -/
def lcs (len : Byte) : Byte := neg8 len

/-- R100, R116, R117: the wire bytes of an information frame with `zeros` bytes `00` before the `FF` and `tail`
after the payload checksum. -/
def wireFrame (zeros : Nat) (payload tail : Bytes) : Bytes :=
  List.replicate zeros Config.preamble ++
    0xFF#8 :: trunc8 payload.length :: lcs (trunc8 payload.length) ::
      (payload ++ checksum payload :: tail)

/-- R108: the frame the encoder builds. -/
def buildFrame (payload : Bytes) : Bytes :=
  Config.preamble :: Config.startCode ++
    [trunc8 payload.length, lcs (trunc8 payload.length)] ++ payload ++
    [checksum payload, Config.postamble]

/-- R150: the encoder; `none` is `InvalidPayloadSize`. -/
def encodeFrame (payload : Bytes) : Option Bytes :=
  if payload.length < Config.payloadMin ∨ payload.length > Config.payloadMax then none
  else some (buildFrame payload)

/-- R150: how `ENCODE` ends. -/
def encodeEnding (payload : Bytes) : Ending :=
  match encodeFrame payload with
  | none => .raised .invalidPayloadSize
  | some frame => .result (.bytes frame)

/-- What a received byte sequence is: the bare acknowledgement sequence (R152), an information frame with the
parts of `wireFrame`, or a rejected sequence with its error kind (R119). -/
inductive Parsed where
  | ack
  | frame (zeros : Nat) (payload tail : Bytes)
  | bad (k : ErrorKind)
  deriving DecidableEq, Repr

/-- R153 steps 1 and 2: the length of the leading `00` run and what follows it. -/
def spanZeros : Bytes → Nat × Bytes
  | [] => (0, [])
  | b :: rest => if b = 0x00#8 then ((spanZeros rest).1 + 1, (spanZeros rest).2) else (0, b :: rest)

/-- R153 steps 3 to 5, on the bytes after the `FF`. -/
def parseBody (zeros : Nat) : Bytes → Parsed
  | len :: lc :: rest =>
    if (len.toNat + lc.toNat) % 256 ≠ 0 then .bad .lengthChecksumMismatch
    else if rest.length < len.toNat + 1 then .bad .payloadChecksumMismatch
    else if checksum (rest.take (len.toNat + 1)) ≠ 0x00#8 then .bad .payloadChecksumMismatch
    else .frame zeros (rest.take len.toNat) (rest.drop (len.toNat + 1))
  | _ => .bad .lengthChecksumMismatch

/-- R152, R153: the decoder, keeping the parts of the frame that the payload leaves out. -/
def parse (raw : Bytes) : Parsed :=
  if raw = Config.ack then .ack
  else match spanZeros raw with
    | (0, _) => .bad .malformedPreamble
    | (_ + 1, []) => .bad .malformedPreamble
    | (k + 1, b :: rest) => if b = 0xFF#8 then parseBody (k + 1) rest else .bad .malformedPreamble

/-- R152, R153: how `DECODE` ends. -/
def decodeEnding (raw : Bytes) : Ending :=
  match parse raw with
  | .ack => .result .ackSentinel
  | .frame _ payload _ => .result (.bytes payload)
  | .bad k => .raised k

/-- R153: `while i < n and raw[i] = 00: i <- i + 1`, with `fuel` at least the bytes that are left. -/
def walkZeros (raw : Bytes) : Nat → Nat → Nat
  | 0, i => i
  | fuel + 1, i => if i < raw.length ∧ raw[i]? = some 0x00#8 then walkZeros raw fuel (i + 1) else i

/-- R153 steps 3 to 5 by index, `i` at the length byte. -/
def walkBody (raw : Bytes) (i : Nat) : Ending :=
  if i + 2 > raw.length then .raised .lengthChecksumMismatch
  else
    let len := (raw.getD i 0x00#8).toNat
    let lc := (raw.getD (i + 1) 0x00#8).toNat
    if (len + lc) % 256 ≠ 0 then .raised .lengthChecksumMismatch
    else if i + 2 + len + 1 > raw.length then .raised .payloadChecksumMismatch
    else if checksum ((raw.drop (i + 2)).take (len + 1)) ≠ 0x00#8 then .raised .payloadChecksumMismatch
    else .result (.bytes ((raw.drop (i + 2)).take len))

/-- R153: the decoder as the spec prints it, a walk of the index `i`. `DECODE` itself runs `decodeEnding`; that the
two agree on every byte sequence is an obligation. -/
def decodeWalk (raw : Bytes) : Ending :=
  if raw = Config.ack then .result .ackSentinel
  else if raw.length = 0 then .raised .malformedPreamble
  else if raw[0]? ≠ some 0x00#8 then .raised .malformedPreamble
  else
    let i := walkZeros raw raw.length 1
    if i = raw.length then .raised .malformedPreamble
    else if raw[i]? ≠ some 0xFF#8 then .raised .malformedPreamble
    else walkBody raw (i + 1)

/-- R10: `t` occurs contiguously in `s`. -/
def contains : Bytes → Bytes → Bool
  | [], t => t.isEmpty
  | b :: rest, t => t.isPrefixOf (b :: rest) || contains rest t

/-- R176: `strip`, with `skip` bytes of a found acknowledgement sequence still to be passed over. -/
def stripFrom : Nat → Bytes → Bytes
  | _, [] => []
  | skip + 1, _ :: rest => stripFrom skip rest
  | 0, b :: rest => if Config.ack.isPrefixOf (b :: rest) then stripFrom 5 rest else b :: stripFrom 0 rest

/-- R176: every occurrence of the acknowledgement sequence removed, left to right, in one pass. -/
def strip (b : Bytes) : Bytes := stripFrom 0 b

/-- R176: the pending response. -/
def pending (acc : Bytes) : Bytes := if strip acc = [] then Config.ack else strip acc

/-- R202: the payload of a `CALL`. -/
def callPayload (cmd : Byte) (params : Bytes) : Bytes := Config.tagH2D :: cmd :: params

/-- R205, R207: the header check of a decoded payload; `CMD + 1` is a natural number and does not wrap (R112). -/
def checkResponse (cmd : Byte) : Bytes → Ending
  | tag :: code :: results =>
    if tag ≠ Config.tagD2H then .raised .unexpectedResponse
    else if code.toNat ≠ cmd.toNat + 1 then .raised .unexpectedResponse
    else .result (.bytes results)
  | _ => .raised .unexpectedResponse

/-- R204, R205, R207: how `CALL` ends once the handshake has left a pending response. -/
def callEnding (cmd : Byte) (pend : Bytes) : Ending :=
  match parse pend with
  | .bad k => .raised k
  | .ack => .result .noTarget
  | .frame _ d _ => checkResponse cmd d

end Sys2Proof.Machine
end

