-- ==== Sys2Proof/Syntax.lean ====
section
/-! DEFINITION. The instructions: one constructor per row of spec/opcode_table.json (30_encoding.md R125). -/

namespace Sys2Proof

/-- One constructor per row. The six rows of format OP carry no operand: their operands are registers and
`IBUF`. The rows of format WIRE and PAYLOAD carry the bytes the format leaves open (log 1). -/
inductive Instr where
  /-- `INFO_FRAME` (R100, R116, R117): `zeros` bytes `00` before the `FF`, the payload, and whatever follows the
  payload checksum (the postamble and trailing bytes, which no rule examines). -/
  | infoFrame (zeros : Nat) (payload tail : Bytes)
  /-- `ACK_FRAME` (R104). -/
  | ackFrame
  /-- `CHECKSUM` (R140). -/
  | checksum
  /-- `ENCODE` (R150). -/
  | encode
  /-- `DECODE` (R152, R153). -/
  | decode
  /-- `SEND_AWAIT_ACK` (R171). -/
  | sendAwaitAck
  /-- `CALL` (R200). -/
  | call
  /-- `INIT` (R206). -/
  | init
  /-- `FIRMWARE_VERSION_REQ` (R113): payload `D4 02` and the parameters. -/
  | firmwareVersionReq (params : Bytes)
  /-- `FIRMWARE_VERSION_RSP` (R113): payload `D5 03` and the results. -/
  | firmwareVersionRsp (results : Bytes)
  /-- `SAM_CONFIGURATION_REQ` (R113): payload `D4 14` and the parameters. -/
  | samConfigurationReq (params : Bytes)
  /-- `SAM_CONFIGURATION_RSP` (R113): payload `D5 15` and the results. -/
  | samConfigurationRsp (results : Bytes)
  /-- `LIST_PASSIVE_TARGET_REQ` (R113): payload `D4 4A` and the parameters. -/
  | listPassiveTargetReq (params : Bytes)
  /-- `LIST_PASSIVE_TARGET_RSP` (R113): payload `D5 4B` and the results. -/
  | listPassiveTargetRsp (results : Bytes)
  /-- `DATA_EXCHANGE_REQ` (R113): payload `D4 40` and the parameters. -/
  | dataExchangeReq (params : Bytes)
  /-- `DATA_EXCHANGE_RSP` (R113): payload `D5 41` and the results. -/
  | dataExchangeRsp (results : Bytes)
  deriving DecidableEq, Repr

end Sys2Proof
end

