-- ==== Sys2Proof/WellFormed.lean ====
section
/-! DEFINITION. Which terms of `Instr` an encoding can carry. -/

namespace Sys2Proof

/-- A frame has at least one `00` before the `FF` (R116), and its payload length fits the length byte, 0 to 255
(R103, R156). A response payload is sent in one frame, so its two header bytes and results are at most 255 bytes.
A request of any length is well formed: one that is too long ends in `InvalidPayloadSize` (R202). -/
def Instr.wf : Instr → Bool
  | .infoFrame zeros payload _ => decide (1 ≤ zeros) && decide (payload.length ≤ 255)
  | .firmwareVersionRsp results => decide (results.length ≤ 253)
  | .samConfigurationRsp results => decide (results.length ≤ 253)
  | .listPassiveTargetRsp results => decide (results.length ≤ 253)
  | .dataExchangeRsp results => decide (results.length ≤ 253)
  | .ackFrame => true
  | .checksum => true
  | .encode => true
  | .decode => true
  | .sendAwaitAck => true
  | .call => true
  | .init => true
  | .firmwareVersionReq _ => true
  | .samConfigurationReq _ => true
  | .listPassiveTargetReq _ => true
  | .dataExchangeReq _ => true

end Sys2Proof
end

