-- ==== Sys2Proof/Decode.lean ====
section
/-! DEFINITION. Decoding and encoding (30_encoding.md). The opcode table has three formats (R125): the 3-bit `OP`
field, leading bytes of a wire sequence, leading bytes of a payload. A word to decode therefore says which format
it is read in. -/

namespace Sys2Proof

/-- An encoded instruction, by the format column of the table (R125). -/
inductive Encoded where
  | op (select : BitVec 3)
  | wire (raw : Bytes)
  | payload (bytes : Bytes)
  deriving DecidableEq, Repr

/-- Why a word is no instruction of the table. -/
inductive Reject where
  /-- R121: `OP` 0 or 7. -/
  | reservedOp
  /-- R119: neither `ACK` nor an information frame; the error kind `DECODE` gives. -/
  | notFrame (k : ErrorKind)
  /-- R110: fewer than the two header bytes. -/
  | payloadTooShort
  /-- R111: the first byte is neither direction tag. -/
  | badTag
  /-- R114: a command or response code outside the listed four; no row stands for it. -/
  | unlistedCode
  /-- R100: a response payload of more than 255 bytes fits no frame. -/
  | payloadTooLong
  deriving DecidableEq, Repr

/-- R121. -/
def decodeOp (select : BitVec 3) : Except Reject Instr :=
  if select = Config.opChecksum then .ok .checksum
  else if select = Config.opEncode then .ok .encode
  else if select = Config.opDecode then .ok .decode
  else if select = Config.opSendAwaitAck then .ok .sendAwaitAck
  else if select = Config.opCall then .ok .call
  else if select = Config.opInit then .ok .init
  else .error .reservedOp

/-- R104, R116, R125: the `ACK` row first, and only for exactly its six bytes. -/
def decodeWire (raw : Bytes) : Except Reject Instr :=
  match Machine.parse raw with
  | .ack => .ok .ackFrame
  | .frame zeros payload tail => .ok (.infoFrame zeros payload tail)
  | .bad k => .error (.notFrame k)

/-- R113: the code of a request payload. -/
def decodeRequest (code : Byte) (params : Bytes) : Except Reject Instr :=
  if code = Config.cmdFirmwareVersion then .ok (.firmwareVersionReq params)
  else if code = Config.cmdSamConfiguration then .ok (.samConfigurationReq params)
  else if code = Config.cmdListPassiveTarget then .ok (.listPassiveTargetReq params)
  else if code = Config.cmdDataExchange then .ok (.dataExchangeReq params)
  else .error .unlistedCode

/-- R112, R113: the code of a response payload. -/
def decodeResponse (code : Byte) (results : Bytes) : Except Reject Instr :=
  if results.length > 253 then .error .payloadTooLong
  else if code = Config.rspFirmwareVersion then .ok (.firmwareVersionRsp results)
  else if code = Config.rspSamConfiguration then .ok (.samConfigurationRsp results)
  else if code = Config.rspListPassiveTarget then .ok (.listPassiveTargetRsp results)
  else if code = Config.rspDataExchange then .ok (.dataExchangeRsp results)
  else .error .unlistedCode

/-- R110, R111: the payload header. -/
def decodePayload : Bytes → Except Reject Instr
  | tag :: code :: rest =>
    if tag = Config.tagH2D then decodeRequest code rest
    else if tag = Config.tagD2H then decodeResponse code rest
    else .error .badTag
  | _ => .error .payloadTooShort

/-- The decoder: total, rejecting by name. -/
def decode : Encoded → Except Reject Instr
  | .op select => decodeOp select
  | .wire raw => decodeWire raw
  | .payload bytes => decodePayload bytes

/-- R110: a payload header and its data. -/
def payloadBytes (tag code : Byte) (data : Bytes) : Bytes := tag :: code :: data

/-- The encoder, from the tables R100, R104, R113, R121. -/
def encode : Instr → Encoded
  | .infoFrame zeros payload tail => .wire (Machine.wireFrame zeros payload tail)
  | .ackFrame => .wire Config.ack
  | .checksum => .op Config.opChecksum
  | .encode => .op Config.opEncode
  | .decode => .op Config.opDecode
  | .sendAwaitAck => .op Config.opSendAwaitAck
  | .call => .op Config.opCall
  | .init => .op Config.opInit
  | .firmwareVersionReq params => .payload (payloadBytes Config.tagH2D Config.cmdFirmwareVersion params)
  | .firmwareVersionRsp results => .payload (payloadBytes Config.tagD2H Config.rspFirmwareVersion results)
  | .samConfigurationReq params => .payload (payloadBytes Config.tagH2D Config.cmdSamConfiguration params)
  | .samConfigurationRsp results => .payload (payloadBytes Config.tagD2H Config.rspSamConfiguration results)
  | .listPassiveTargetReq params => .payload (payloadBytes Config.tagH2D Config.cmdListPassiveTarget params)
  | .listPassiveTargetRsp results => .payload (payloadBytes Config.tagD2H Config.rspListPassiveTarget results)
  | .dataExchangeReq params => .payload (payloadBytes Config.tagH2D Config.cmdDataExchange params)
  | .dataExchangeRsp results => .payload (payloadBytes Config.tagD2H Config.rspDataExchange results)

/-- `n` bytes of a number, bits 7..0 first. -/
def bytesLow : Nat → Nat → Bytes
  | 0, _ => []
  | n + 1, w => trunc8 w :: bytesLow n (w / 256)

/-- Operand bytes that the table gives no bits, all zero: enough for the length, length checksum, payload checksum
and postamble of a frame with an empty payload. -/
def operandZeros : Bytes := List.replicate 4 0x00#8

/-- A word of a WIRE or PAYLOAD row in the format its first byte tells: a wire sequence begins with `00` (R100), a
payload with a direction tag (R111). -/
def rowFormat (bytes : Bytes) : Encoded :=
  match bytes with
  | b :: _ => if b = Config.tagH2D ∨ b = Config.tagD2H then .payload bytes else .wire bytes
  | [] => .wire bytes

/-- The ways to read the number `w` as a row's word (log 9): one byte is the `OP` register (R32, bits [2:0]); more
bytes are the sequence, first byte leftmost as R125 prints it or first byte in bits 7..0, each as it stands and with
operand bytes of zero. -/
def rowReadings (nbits w : Nat) : List Encoded :=
  if nbits ≤ 8 then [.op (BitVec.ofNat 3 w)]
  else
    let low := bytesLow (nbits / 8) w
    [rowFormat low.reverse, rowFormat low, rowFormat (low.reverse ++ operandZeros), rowFormat (low ++ operandZeros)]

/-- The first of some encoded words that decodes, with its instruction. -/
def firstDecoded : List Encoded → Option (Encoded × Instr)
  | [] => none
  | e :: rest => match decode e with
    | .ok i => some (e, i)
    | .error _ => firstDecoded rest

/-- The word of a row and the instruction the decoder reads from it. -/
def rowDecoded (nbits w : Nat) : Option (Encoded × Instr) := firstDecoded (rowReadings nbits w)

/-- The instruction the decoder reads from the bits of an opcode-table row. -/
def decodeTableWord (nbits w : Nat) : Option Instr := (rowDecoded nbits w).map (·.2)

end Sys2Proof
end

