-- ==== Sys2Proof/Machine/State.lean ====
section
/-! DEFINITION. The state of one instance (10_state.md R31), plain data, and its reset value (R60). -/

namespace Sys2Proof.Machine

/-- R37: where the running operation stands. -/
inductive Phase where
  | idle
  | flush
  | write
  | poll
  | expired
  | backoff
  deriving DecidableEq, Repr

/-- R45: the kind of the result of the last ended operation. -/
inductive ResultKind where
  | none
  | bytes
  | ackSentinel
  | noTarget
  deriving DecidableEq, Repr

/-- R49: a transport event. -/
inductive Event where
  | flush (discarded : Bytes)
  | write (sent : Bytes)
  | read (got : Bytes)
  deriving DecidableEq, Repr

/-- R47, R70: the buffers of the buffer space. -/
inductive Buffer where
  | ibuf
  | obuf
  | txf
  | acc
  deriving DecidableEq, Repr

/-- One move of one agent (R30, R123): what happens next, as data (log 2). -/
inductive Turn where
  /-- The block takes its next step (R37). -/
  | block
  /-- The host writes a value to a register by number (R32 to R36); register 4 bit 0 is `START`. -/
  | hostWrite (reg value : Nat)
  /-- The host replaces `IBUF` whole (R12 `BUF <- s`, R47). -/
  | hostSetIbuf (bytes : Bytes)
  /-- The host replaces bytes of `IBUF` at an offset (R12 `MemWrite`). -/
  | hostPatchIbuf (offset : Nat) (bytes : Bytes)
  /-- A program line `CALL CMD=<code> IBUF=<params>` (R123): the operands written and `START` given. -/
  | hostCall (code : Byte) (params : Bytes)
  /-- The host drives the `STOP` level (R36, R245). -/
  | hostStop (level : Bool)
  /-- A program line `device: <bytes>` (R78, R123). -/
  | device (bytes : Bytes)
  /-- The device sends a response payload in an information frame (R78, R100, R110). -/
  | deviceRespond (code : Byte) (results : Bytes)
  /-- The reset input (R280, R281), with what `RXQ` holds afterwards: any byte sequence (R48). -/
  | reset (rxq : Bytes)
  deriving DecidableEq, Repr

/-- R31: host operand registers, sequencer registers, status flags, buffers, environment state. -/
structure State where
  /-- R32, register 0 bits [2:0]. -/
  op : BitVec 3
  /-- R33, register 1. -/
  cmd : Byte
  /-- R34, register 2. -/
  ackTimeoutMs : BitVec 16
  /-- R35, register 3. -/
  retryIntervalMs : BitVec 16
  /-- R36, R245: the level of the `STOP` input. -/
  stop : Bool
  /-- R37. -/
  phase : Phase
  /-- R39. -/
  timer : Nat
  /-- R40. -/
  att : Nat
  /-- R41. -/
  opl : BitVec 3
  /-- R42, STATUS bit 0. -/
  busy : Bool
  /-- R43, STATUS bit 1. -/
  done : Bool
  /-- R44, STATUS bits [7:4]; `none` is code 0. -/
  err : Option ErrorKind
  /-- R45, STATUS bits [3:2]. -/
  rkind : ResultKind
  /-- R46, register 6 bit 0. -/
  inited : Bool
  /-- R47; `ILEN` (register 7) is its length. -/
  ibuf : Bytes
  /-- R47; `OLEN` (register 8) is its length. -/
  obuf : Bytes
  /-- R47. -/
  txf : Bytes
  /-- R47. -/
  acc : Bytes
  /-- R47, R48. -/
  rxq : Bytes
  /-- R49, oldest first. -/
  hist : List Event
  /-- R262, R301: milliseconds passed in `WAIT` since reset; the model's own (log 7). -/
  waitedMs : Nat
  /-- The moves to come, next first; the model's own (log 2). -/
  sched : List Turn
  /-- How many free bytes have been used; the model's own (log 8). -/
  freeCount : Nat
  deriving DecidableEq, Repr

/-- What stops the machine. Only a host access does; no instruction faults. -/
inductive Fault where
  /-- Raised by a host write (`hostWriteReg`) to a register number the spec does not give (R32 to R47 number 0 to
  8). Safe: nothing is claimed of such a write (log 15). -/
  | noSuchRegister
  /-- Raised by a host write into `IBUF` (`hostPatch`) that reaches past the end of the buffer, where R12 defines no
  access. Safe: nothing is claimed of such a write (log 15). -/
  | bufferRange
  deriving DecidableEq, Repr

/-- Why the model has no meaning for an instruction. -/
inductive Refusal where
  /-- Raised by an arm of `exec` whose instruction has no meaning yet; no arm does. Safe. -/
  | notModelled (mnemonic : String)
  deriving DecidableEq, Repr

/-- The outcome of a step of this machine. -/
abbrev Outcome := Host.Outcome State Fault Refusal

/-- R60, R280: the state after reset. The OPEN defaults, `RXQ` and the `STOP` input are free (log 4, log 5, log 6). -/
def State.reset : State where
  op := 0#3
  cmd := 0x00#8
  ackTimeoutMs := Config.params.ackTimeoutDefault
  retryIntervalMs := Config.params.retryIntervalDefault
  stop := Config.stopAtReset
  phase := .idle
  timer := 0
  att := 0
  opl := 0#3
  busy := false
  done := false
  err := none
  rkind := .none
  inited := false
  ibuf := []
  obuf := []
  txf := []
  acc := []
  rxq := Config.rxqAtReset
  hist := []
  waitedMs := 0
  sched := []
  freeCount := 0

end Sys2Proof.Machine
end

