-- ==== Sys2Proof/Machine/Flags.lean ====
section
/-! DEFINITION. The status encodings (30_encoding.md R122) and the flags an accepted START and an ending
operation write (10_state.md R42 to R45). -/

namespace Sys2Proof

/-- 60_exceptions.md R240: the code of an error kind. -/
def ErrorKind.code : ErrorKind → BitVec 4
  | .invalidPayloadSize => 1#4
  | .malformedPreamble => 2#4
  | .lengthChecksumMismatch => 3#4
  | .payloadChecksumMismatch => 4#4
  | .unexpectedResponse => 5#4
  | .invalidParameterType => 6#4
  | .noDevice => 7#4
  | .multipleCardsDetected => 8#4
  | .uidTooLong => 9#4
  | .invalidBlockSize => 10#4
  | .handshakeTimeout => 11#4

/-- R240: the kinds the block itself raises. -/
def ErrorKind.ofBlock : ErrorKind → Bool
  | .invalidPayloadSize => true
  | .malformedPreamble => true
  | .lengthChecksumMismatch => true
  | .payloadChecksumMismatch => true
  | .unexpectedResponse => true
  | .handshakeTimeout => true
  | .invalidParameterType => false
  | .noDevice => false
  | .multipleCardsDetected => false
  | .uidTooLong => false
  | .invalidBlockSize => false

namespace Machine

/-- R45, R122: the code of a result kind. -/
def ResultKind.code : ResultKind → BitVec 2
  | .none => 0#2
  | .bytes => 1#2
  | .ackSentinel => 2#2
  | .noTarget => 3#2

/-- R44: the `ERR` field. -/
def errCode : Option ErrorKind → BitVec 4
  | none => 0#4
  | some k => k.code

/-- R45: the kind of a result. -/
def resultKind : Result → ResultKind
  | .bytes _ => .bytes
  | .ackSentinel => .ackSentinel
  | .noTarget => .noTarget

/-- R45, R47: the bytes a result leaves in `OBUF`; kinds 2 and 3 leave it empty. -/
def resultBytes : Result → Bytes
  | .bytes s => s
  | .ackSentinel => []
  | .noTarget => []

/-- R42 to R45: `STATUS`, `ERR` in bits [7:4], `RKIND` in [3:2], `DONE` in bit 1, `BUSY` in bit 0. -/
def State.status (s : State) : BitVec 8 :=
  errCode s.err ++ s.rkind.code ++ BitVec.ofBool s.done ++ BitVec.ofBool s.busy

/-- R60 to R45 read back: the ending that `DONE`, `ERR`, `RKIND` and `OBUF` tell the host, if an operation has
ended since the last accepted START. -/
def State.ending (s : State) : Option Ending :=
  if s.done then
    match s.err, s.rkind with
    | some k, _ => some (.raised k)
    | none, .bytes => some (.result (.bytes s.obuf))
    | none, .ackSentinel => some (.result .ackSentinel)
    | none, .noTarget => some (.result .noTarget)
    | none, .none => none
  else none

end Machine

end Sys2Proof
end

