-- ==== Sys2Proof/Machine/Operands.lean ====
section
/-! DEFINITION. Operand access: the host registers by number (10_state.md R32 to R47), the buffers by name and
offset (00_scope.md R12). -/

namespace Sys2Proof.Machine

/-- R47, R70: the contents of a buffer. -/
def State.buffer (s : State) : Buffer → Bytes
  | .ibuf => s.ibuf
  | .obuf => s.obuf
  | .txf => s.txf
  | .acc => s.acc

/-- R12: `MemRead(BUF+off, n)`, defined only inside the buffer. -/
def memRead (buf : Bytes) (off n : Nat) : Option Bytes :=
  if off + n ≤ buf.length then some ((buf.drop off).take n) else none

/-- R12: `MemWrite(BUF+off, n, v)` with `n = |v|`, defined only inside the buffer. -/
def memWrite (buf : Bytes) (off : Nat) (v : Bytes) : Option Bytes :=
  if off + v.length ≤ buf.length then some (buf.take off ++ v ++ buf.drop (off + v.length)) else none

/-- R47: what the host may read of a buffer; `TXF` and `ACC` have no host access. -/
def State.hostReadBuffer (s : State) (b : Buffer) (off n : Nat) : Option Bytes :=
  match b with
  | .ibuf => memRead s.ibuf off n
  | .obuf => memRead s.obuf off n
  | .txf => none
  | .acc => none

/-- R32 to R36, R42 to R47: the value the host reads from a register, by its number; a number above 8 names no register.
DESIGN CHOICE (log 20): bits [7:1] of register 6, and of `CTRL` every bit but `START`, which R36 says reads as 0, read as
0, as R32 says of register 0's upper bits; and a read gives the held value whatever `BUSY` is. DEDUCED
(log 11, unsafe): registers 7 and 8 read as the full length, also past their 16 bits. -/
def State.readReg (s : State) : Nat → Option Nat
  | 0 => some s.op.toNat
  | 1 => some s.cmd.toNat
  | 2 => some s.ackTimeoutMs.toNat
  | 3 => some s.retryIntervalMs.toNat
  | 4 => some 0
  | 5 => some s.status.toNat
  | 6 => some s.inited.toNat
  | 7 => some s.ibuf.length
  | 8 => some s.obuf.length
  | _ => none

/-- The free bytes number `k`, `k + 1`, … that fill a lengthened `IBUF` (log 8). -/
def freeBytes (k : Nat) : Nat → Bytes
  | 0 => []
  | n + 1 => Config.freeByte k :: freeBytes (k + 1) n

/-- R47: `IBUF` given the length `n`: cut to its front (DEDUCED, unsafe, log 8), or made longer by bytes the spec gives no
value for (free, log 8). -/
def setIlen (n : Nat) (s : State) : State :=
  { s with
    ibuf := s.ibuf.take n ++ freeBytes s.freeCount (n - s.ibuf.length)
    freeCount := s.freeCount + (n - s.ibuf.length) }

/-- R32 to R36: a host write to an operand register. Ignored while `BUSY = 1` (R36). A register keeps the low bits of
the value that fit its field (log 15); `STATUS`, `INITED` and `OLEN` are read-only. `CTRL` is `hostWriteReg`'s. -/
def writeOperand (reg value : Nat) (s : State) : State :=
  if s.busy then s
  else match reg with
    | 0 => { s with op := BitVec.ofNat 3 value }
    | 1 => { s with cmd := trunc8 value }
    | 2 => { s with ackTimeoutMs := BitVec.ofNat 16 value }
    | 3 => { s with retryIntervalMs := BitVec.ofNat 16 value }
    | 7 => setIlen (value % 65536) s
    | _ => s

/-- R36, R47: the host replaces `IBUF`; ignored while `BUSY = 1`. -/
def setIbuf (bytes : Bytes) (s : State) : State := if s.busy then s else { s with ibuf := bytes }

end Sys2Proof.Machine
end

