-- ==== Sys2Proof/Machine/Ops.lean ====
section
/-! DEFINITION. The shared operations of every meaning: the transport primitives (20_memory.md R75 to R78), WAIT
(60_exceptions.md R262), accepting a START (10_state.md R36, R41 to R45), ending with a result, and raising an
error (60_exceptions.md R250, R252). -/

namespace Sys2Proof.Machine

/-- R75: `T_FLUSH()`. It discards received bytes and is no cache operation; the block has no cache (R87). -/
def tFlush (s : State) : State := { s with hist := s.hist ++ [.flush s.rxq], rxq := [] }

/-- R76: `T_WRITE(bytes)`. -/
def tWrite (bytes : Bytes) (s : State) : State := { s with hist := s.hist ++ [.write bytes] }

/-- R77 with the handshake's use of it (R174): `ACC <- ACC ++ T_READ_AVAIL()`. -/
def tReadIntoAcc (s : State) : State :=
  { s with acc := s.acc ++ s.rxq, hist := s.hist ++ [.read s.rxq], rxq := [] }

/-- R262: `WAIT(n)`: `n` milliseconds pass. What other agents do meanwhile are turns before this one (log 7). -/
def wait (n : Nat) (s : State) : State := { s with waitedMs := s.waitedMs + n }

/-- R78: the device appends to the inbound stream. -/
def deviceArrives (bytes : Bytes) (s : State) : State := { s with rxq := s.rxq ++ bytes }

/-- What an accepted START writes before the operation runs: `BUSY` 1, `DONE`, `ERR`, `RKIND` and `OBUF` cleared, the
operation latched in `OPL` (R41 to R45, R47, R172, R202). Clearing `ERR` here is the return from an error (R258). -/
def accept (select : BitVec 3) (s : State) : State :=
  { s with busy := true, done := false, err := none, rkind := .none, obuf := [], opl := select }

/-- The end of an operation with a result (R42 to R45, R47, R171). -/
def finish (r : Result) (s : State) : State :=
  { s with
    obuf := resultBytes r, rkind := resultKind r, err := none, done := true, busy := false, phase := .idle }

/-- R250, R252: `raise k`, the block's one trap mechanism. Everything it does not name keeps its value. -/
def raise (k : ErrorKind) (s : State) : State :=
  { s with obuf := [], rkind := .none, err := some k, done := true, busy := false, phase := .idle }

/-- The end of an operation, whichever way it ends. -/
def endWith (e : Ending) (s : State) : State :=
  match e with
  | .result r => finish r s
  | .raised k => raise k s

/-- R36, R121: a START runs `body` when no operation is running and changes nothing otherwise. -/
def startIf (select : BitVec 3) (body : State → State) (s : State) : Outcome :=
  .next (if s.busy then s else body (accept select s))

end Sys2Proof.Machine
end

