-- ==== Sys2Proof/Machine/Checksum.lean ====
section
/-! DEFINITION. Operation family 1: CHECKSUM (40_checksum.md). -/

namespace Sys2Proof.Machine

/-- R140: a START with `OP = 1`. -/
def execChecksum (s : State) : Outcome :=
  startIf Config.opChecksum (fun t => finish (.bytes [checksum t.ibuf]) t) s

end Sys2Proof.Machine
end

