-- ==== Sys2Proof/Machine/FrameCodec.lean ====
section
/-! DEFINITION. Operation family 2: ENCODE and DECODE (41_framecodec.md). -/

namespace Sys2Proof.Machine

/-- R150: a START with `OP = 2`. -/
def execEncode (s : State) : Outcome :=
  startIf Config.opEncode (fun t => endWith (encodeEnding t.ibuf) t) s

/-- R152, R153: a START with `OP = 3`. -/
def execDecode (s : State) : Outcome :=
  startIf Config.opDecode (fun t => endWith (decodeEnding t.ibuf) t) s

end Sys2Proof.Machine
end

