-- ==== Sys2Proof/Machine/Channel.lean ====
section
/-! DEFINITION. Operation family 4: the start of CALL, and INIT (43_commandchannel.md). The handshake steps that
CALL runs after its start, and its last step, are in Machine/Handshake.lean. -/

namespace Sys2Proof.Machine

/-- R202: the start step of `CALL`, after the START was accepted: the frame is built before anything is sent. -/
def startCall (s : State) : State :=
  match encodeFrame (callPayload s.cmd s.ibuf) with
  | none => raise .invalidPayloadSize s
  | some frame => { s with txf := frame, phase := .flush }

/-- R200, R202: a START with `OP = 5`. -/
def execCall (s : State) : Outcome := startIf Config.opCall startCall s

/-- R206: the wake-up write. -/
def runInit (p : Params) (s : State) : State :=
  finish (.bytes []) { tWrite p.wakeup s with inited := true }

/-- R206: a START with `OP = 6`. -/
def execInit (s : State) : Outcome := startIf Config.opInit (runInit Config.params) s

end Sys2Proof.Machine
end

