-- ==== Sys2Proof/Machine/Handshake.lean ====
section
/-! DEFINITION. Operation family 3: SEND_AWAIT_ACK and the steps of the acknowledgement handshake
(42_ackhandshake.md R172 to R179), which CALL runs too (43_commandchannel.md R203). -/

namespace Sys2Proof.Machine

/-- R172: the start step of `SEND_AWAIT_ACK`, after the START was accepted. -/
def startSend (s : State) : State := { s with txf := s.ibuf, phase := .flush }

/-- R171, R172: a START with `OP = 4`. -/
def execSendAwaitAck (s : State) : Outcome := startIf Config.opSendAwaitAck startSend s

/-- R172: `FLUSH`. -/
def flushStep (s : State) : State := { tFlush s with acc := [], att := 0, phase := .write }

/-- R173: `WRITE`. -/
def writeStep (p : Params) (s : State) : State :=
  { tWrite s.txf s with
    acc := if p.accClearOnRetry then [] else s.acc, att := s.att + 1, timer := 0, phase := .poll }

/-- R176, R203, R204: the step that found an acknowledgement ends the operation: `SEND_AWAIT_ACK` with the pending
response, `CALL` with what the pending response decodes to. -/
def acknowledged (s : State) : State :=
  if s.opl = Config.opCall then endWith (callEnding s.cmd (pending s.acc)) s
  else finish (.bytes (pending s.acc)) s

/-- R174: what a `POLL` does before it decides: wait, count, read, append. -/
def pollRead (p : Params) (s : State) : State :=
  { tReadIntoAcc (wait p.pollIntervalMs s) with timer := s.timer + p.pollIntervalMs }

/-- R174: after the read: success first, then expiry, then another poll. -/
def pollDecide (s : State) : State :=
  if contains s.acc Config.ack then acknowledged s
  else if s.timer ≥ s.ackTimeoutMs.toNat then { s with phase := .expired }
  else s

/-- R174: `POLL`. -/
def pollStep (p : Params) (s : State) : State := pollDecide (pollRead p s)

/-- R177: the retry bound is used up. -/
def retriesUsedUp (p : Params) (att : Nat) : Bool :=
  match p.maxRetries with
  | none => false
  | some m => decide (att > m)

/-- R177, R178: `EXPIRED`, the only step that samples `STOP`. -/
def expiredStep (p : Params) (s : State) : State :=
  if s.stop then raise .handshakeTimeout s
  else if retriesUsedUp p s.att then raise .handshakeTimeout s
  else { s with phase := .backoff }

/-- R179: `BACKOFF`. -/
def backoffStep (s : State) : State := { wait s.retryIntervalMs.toNat s with phase := .write }

/-- R37: the block's next step. In `IDLE` nothing runs (R282). -/
def blockStep (p : Params) (s : State) : State :=
  match s.phase with
  | .idle => s
  | .flush => flushStep s
  | .write => writeStep p s
  | .poll => pollStep p s
  | .expired => expiredStep p s
  | .backoff => backoffStep s

end Sys2Proof.Machine
end

