-- ==== Sys2Proof/Machine/Payload.lean ====
section
/-! DEFINITION. The rows of format PAYLOAD_H2D and PAYLOAD_D2H (30_encoding.md R110, R113). A request payload is what
`CALL` builds from `CMD` and `IBUF` (43_commandchannel.md R202); its row is the program line
`CALL CMD=<code> IBUF=<params>` (R123, R124). A response payload is what the device sends in an information frame
(R78, R100) and `CALL` checks (R205). Log 1. -/

namespace Sys2Proof.Machine

/-- R123, R36: the line `CALL CMD=<code> IBUF=<params>`: the host writes the operands, `OP = 5` and START; all of it
ignored while `BUSY = 1`. -/
def callLine (code : Byte) (params : Bytes) (s : State) : Outcome :=
  if s.busy then .next s
  else startIf Config.opCall startCall { s with op := Config.opCall, cmd := code, ibuf := params }

/-- R78, R100, R110: the device sends the payload `D5, code, results` in an information frame. -/
def respondLine (code : Byte) (results : Bytes) (s : State) : Outcome :=
  .next (deviceArrives (buildFrame (Config.tagD2H :: code :: results)) s)

def execFirmwareVersionReq (params : Bytes) (s : State) : Outcome := callLine Config.cmdFirmwareVersion params s
def execFirmwareVersionRsp (results : Bytes) (s : State) : Outcome := respondLine Config.rspFirmwareVersion results s
def execSamConfigurationReq (params : Bytes) (s : State) : Outcome := callLine Config.cmdSamConfiguration params s
def execSamConfigurationRsp (results : Bytes) (s : State) : Outcome := respondLine Config.rspSamConfiguration results s
def execListPassiveTargetReq (params : Bytes) (s : State) : Outcome := callLine Config.cmdListPassiveTarget params s
def execListPassiveTargetRsp (results : Bytes) (s : State) : Outcome := respondLine Config.rspListPassiveTarget results s
def execDataExchangeReq (params : Bytes) (s : State) : Outcome := callLine Config.cmdDataExchange params s
def execDataExchangeRsp (results : Bytes) (s : State) : Outcome := respondLine Config.rspDataExchange results s

end Sys2Proof.Machine
end

