-- ==== Sys2Proof/Machine/Wire.lean ====
section
/-! DEFINITION. The rows of format WIRE (30_encoding.md R100, R104), as the `device:` lines of a program (R123): the
device sends the bytes, they join the receive queue (20_memory.md R78). Log 1. -/

namespace Sys2Proof.Machine

/-- `INFO_FRAME`: an information frame arrives. -/
def execInfoFrame (zeros : Nat) (payload tail : Bytes) (s : State) : Outcome :=
  .next (deviceArrives (wireFrame zeros payload tail) s)

/-- `ACK_FRAME`: the acknowledgement sequence arrives. -/
def execAckFrame (s : State) : Outcome := .next (deviceArrives Config.ack s)

end Sys2Proof.Machine
end

