-- ==== Sys2Proof/Machine/Dispatch.lean ====
section
/-! DEFINITION. One arm per constructor of Instr. -/

namespace Sys2Proof.Machine

def exec (i : Instr) (s : State) : Host.Outcome State Fault Refusal :=
  match i with
  | .infoFrame zeros payload tail => Sys2Proof.Machine.execInfoFrame zeros payload tail s
  | .ackFrame => Sys2Proof.Machine.execAckFrame s
  | .checksum => Sys2Proof.Machine.execChecksum s
  | .encode => Sys2Proof.Machine.execEncode s
  | .decode => Sys2Proof.Machine.execDecode s
  | .sendAwaitAck => Sys2Proof.Machine.execSendAwaitAck s
  | .call => Sys2Proof.Machine.execCall s
  | .init => Sys2Proof.Machine.execInit s
  | .firmwareVersionReq params => Sys2Proof.Machine.execFirmwareVersionReq params s
  | .firmwareVersionRsp results => Sys2Proof.Machine.execFirmwareVersionRsp results s
  | .samConfigurationReq params => Sys2Proof.Machine.execSamConfigurationReq params s
  | .samConfigurationRsp results => Sys2Proof.Machine.execSamConfigurationRsp results s
  | .listPassiveTargetReq params => Sys2Proof.Machine.execListPassiveTargetReq params s
  | .listPassiveTargetRsp results => Sys2Proof.Machine.execListPassiveTargetRsp results s
  | .dataExchangeReq params => Sys2Proof.Machine.execDataExchangeReq params s
  | .dataExchangeRsp results => Sys2Proof.Machine.execDataExchangeRsp results s

end Sys2Proof.Machine
end

