-- ==== Sys2Proof/Machine/Turns.lean ====
section
/-! DEFINITION. What one turn of the schedule does: the host's accesses (10_state.md R32 to R36, R47), the device's
arrivals (20_memory.md R78), reset (70_reset_and_hazards.md R280, R281), and the block's own step. -/

namespace Sys2Proof.Machine

/-- R36, R121: a START runs the operation `OP` selects; a reserved `OP` changes nothing. -/
def start (s : State) : Outcome :=
  match decode (.op s.op) with
  | .ok i => exec i s
  | .error _ => .next s

/-- R32 to R36, R42, R46, R47: a host write to a register by number. Register 4 is `CTRL`: a value with bit 0 set is
START. A number above 8 names no register. -/
def hostWriteReg (reg value : Nat) (s : State) : Outcome :=
  if reg = 4 then (if value % 2 = 1 then start s else .next s)
  else if reg ≤ 8 then .next (writeOperand reg value s)
  else .fault .noSuchRegister

/-- R12, R36: a host write into `IBUF` at an offset; ignored while `BUSY = 1`. -/
def hostPatch (off : Nat) (bytes : Bytes) (s : State) : Outcome :=
  if s.busy then .next s
  else match memWrite s.ibuf off bytes with
    | some buf => .next { s with ibuf := buf }
    | none => .fault .bufferRange

/-- R123: a program line `CALL CMD=<code> IBUF=<params>`. `CALL` takes any byte as `CMD` (R114): a code without a row
in the table runs the same way. -/
def hostCallLine (code : Byte) (params : Bytes) (s : State) : Outcome :=
  match decode (.payload (payloadBytes Config.tagH2D code params)) with
  | .ok i => exec i s
  | .error _ => callLine code params s

/-- R123: a program line `device: <bytes>`. Bytes that are no frame arrive all the same (R78). -/
def deviceLine (bytes : Bytes) (s : State) : Outcome :=
  match decode (.wire bytes) with
  | .ok i => exec i s
  | .error _ => .next (deviceArrives bytes s)

/-- R78, R100, R110: the device sends a response payload; a code without a row in the table arrives the same way. -/
def deviceRespondLine (code : Byte) (results : Bytes) (s : State) : Outcome :=
  match decode (.payload (payloadBytes Config.tagD2H code results)) with
  | .ok i => exec i s
  | .error _ => respondLine code results s

/-- R60, R280, R281: the reset input. `RXQ` then holds any byte sequence (R48), given by the turn; `STOP` is an input and
keeps its level; the moves to come and the count of free bytes are the model's and go on (log 16). -/
def applyReset (rxq : Bytes) (s : State) : State :=
  { State.reset with rxq := rxq, stop := s.stop, sched := s.sched, freeCount := s.freeCount }

/-- One turn, of whichever agent (R30). -/
def applyTurn (p : Params) (t : Turn) (s : State) : Outcome :=
  match t with
  | .block => .next (blockStep p s)
  | .hostWrite reg value => hostWriteReg reg value s
  | .hostSetIbuf bytes => .next (setIbuf bytes s)
  | .hostPatchIbuf off bytes => hostPatch off bytes s
  | .hostCall code params => hostCallLine code params s
  | .hostStop level => .next { s with stop := level }
  | .device bytes => deviceLine bytes s
  | .deviceRespond code results => deviceRespondLine code results s
  | .reset rxq => .next (applyReset rxq s)

/-- The next turn of the schedule; when the schedule lists none, the block takes its own next step (log 2). -/
def runTurn (p : Params) (s : State) : Outcome :=
  match s.sched with
  | [] => .next (blockStep p s)
  | t :: rest => applyTurn p t { s with sched := rest }

/-- The state in which the next turn is the one that runs an encoded instruction (log 9, log 10). -/
def placeNext (e : Encoded) (s : State) : State :=
  match e with
  | .op select => { s with op := select, sched := .hostWrite 4 1 :: s.sched }
  | .wire raw => { s with sched := .device raw :: s.sched }
  | .payload bytes =>
    match bytes with
    | tag :: code :: rest =>
      if tag = Config.tagH2D then { s with sched := .hostCall code rest :: s.sched }
      else { s with sched := .deviceRespond code rest :: s.sched }
    | _ => s

/-- The word of an opcode-table row placed where the next step takes its instruction; a word that is no instruction
arrives as it stands, first byte leftmost. -/
def placeRow (nbits w : Nat) (s : State) : State :=
  match rowDecoded nbits w with
  | some (e, _) => placeNext e s
  | none => if nbits ≤ 8 then placeNext (.op (BitVec.ofNat 3 w)) s
            else placeNext (.wire (bytesLow (nbits / 8) w).reverse) s

end Sys2Proof.Machine
end

