-- ==== Sys2Proof/Machine/Step.lean ====
section
/-! DEFINITION. One step of the machine: one turn of one agent. -/

namespace Sys2Proof.Machine

/-- One step, with this machine's parameters. -/
def step (s : State) : Host.Outcome State Fault Refusal := runTurn Config.params s

/-- `s` with an opcode-table row's word placed so that the very next step runs it (log 10). -/
def State.withFetchWord (s : State) (nbits w : Nat) : State := placeRow nbits w s

end Sys2Proof.Machine
end

