-- ==== Sys2Proof/Machine/CardOps.lean ====
section
/-! DEFINITION. Host software over the block: the flattening of `CALL` parameters (43_commandchannel.md R201), the six
functions of the consumer layer and its initialize (44_cardops_consumers.md R220 to R231). They are outside the block
(00_scope.md R6): no step of the machine calls them. A function's line goes to the machine as the turn `CardOp.turn`
gives, and its outcome is read from how that `CALL` ended. Log 12, log 13, log 21 to log 24. -/

namespace Sys2Proof.Machine

/-- R201: what a host may hand over as a parameter. -/
inductive Param where
  | int (v : Int)
  | text (t : String)
  | seq (ps : List Param)
  | other
  deriving Repr

mutual

/-- R201: nested sequences flattened, text encoded, integers masked to one byte; anything else is
`InvalidParameterType`. -/
def flattenParam : Param → Except ErrorKind Bytes
  | .int v => .ok [BitVec.ofInt 8 v]
  | .text t => .ok (Config.textBytes t)
  | .seq ps => flattenParams ps
  | .other => .error .invalidParameterType

/-- R201, on a sequence of parameters, left to right. -/
def flattenParams : List Param → Except ErrorKind Bytes
  | [] => .ok []
  | p :: ps =>
    match flattenParam p with
    | .error k => .error k
    | .ok b =>
      match flattenParams ps with
      | .error k => .error k
      | .ok bs => .ok (b ++ bs)

end

/-- R223: the longest UID. -/
def maxUidLength : Nat := 7

/-- R226, R227: the size of a block. -/
def blockSize : Nat := 16

/-- R224, R227: a key is 6 bytes. -/
abbrev Key := Vector Byte 6

/-- R224, R227: a UID is 0 to 7 bytes. -/
structure Uid where
  bytes : Bytes
  short : bytes.length ≤ maxUidLength
  deriving DecidableEq, Repr

/-- The consumer functions (R221 to R226). A block index is an integer, masked to one byte (R224, R227, R201). Keys and
UIDs have the lengths of R227 by their types: the spec gives no check and no error for other lengths, and there is no
such argument (DESIGN CHOICE, log 12). -/
inductive CardOp where
  | getFirmwareVersion
  | configureReader
  | discoverTarget (baudProfile : Byte)
  | authenticateBlock (uid : Uid) (block : Int) (keyType : Byte) (key : Key)
  | readBlock (block : Int)
  | writeBlock (block : Int) (data : Bytes)
  deriving DecidableEq, Repr

/-- The outcome of a consumer function, with the values the rules give it. -/
inductive CardOutcome where
  /-- R221. -/
  | version (bytes : Bytes)
  /-- R222: a non-failing call. -/
  | configured
  /-- R223, R228: the sentinel, the result `NoTarget` of the `CALL`, "no card present"; not an error. -/
  | noTarget
  /-- R223. -/
  | uid (uid : Uid)
  /-- R224, R226: true or false. -/
  | flag (accepted : Bool)
  /-- R225. -/
  | data (bytes : Bytes)
  /-- R225: "no data", distinct from a protocol error. -/
  | noData
  /-- R220, R231: an error of the `CALL`, passed on unchanged, or an error of the consumer layer. -/
  | failed (k : ErrorKind)
  /-- U13, N11: the response of a `discover_target` or `read_block` is shorter than the offsets its rule reads; or the
  `CALL` ended with `AckSentinel`, which no `CALL` does (R204). Nothing is said of it (log 12). -/
  | unsettled
  deriving DecidableEq, Repr

/-- R228: the three outcome channels. -/
inductive OutcomeChannel where
  | hardError
  | sentinel
  | value
  deriving DecidableEq, Repr

/-- R228: the channel of an outcome; an outcome the spec leaves open has none. -/
def CardOutcome.channel : CardOutcome → Option OutcomeChannel
  | .failed _ => some .hardError
  | .noTarget => some .sentinel
  | .version _ => some .value
  | .configured => some .value
  | .uid _ => some .value
  | .flag _ => some .value
  | .data _ => some .value
  | .noData => some .value
  | .unsettled => none

/-- R201: an integer as a parameter byte, masked; a negative one to its value mod 256 (DEDUCED, log 13). -/
def intByte (v : Int) : Byte := BitVec.ofInt 8 v

/-- R221 to R226: the command code and parameters of a function, or the argument check that fails before any I/O. The
order of the bytes of `discover_target` and the leading `01` of `write_block` are PRESUMED (log 21). -/
def CardOp.request : CardOp → Except ErrorKind (Byte × Bytes)
  | .getFirmwareVersion => .ok (Config.cmdFirmwareVersion, [])
  | .configureReader => .ok (Config.cmdSamConfiguration, Config.samParams)
  | .discoverTarget baudProfile => .ok (Config.cmdListPassiveTarget, [0x01#8, baudProfile])
  | .authenticateBlock uid block keyType key =>
    .ok (Config.cmdDataExchange, [0x01#8, keyType, intByte block] ++ key.toList ++ uid.bytes)
  | .readBlock block => .ok (Config.cmdDataExchange, [0x01#8, Config.readSubCommand, intByte block])
  | .writeBlock block data =>
    if data.length ≠ blockSize then .error .invalidBlockSize
    else .ok (Config.cmdDataExchange, [0x01#8, Config.writeSubCommand, intByte block] ++ data)

/-- R124, R220: the one program line of a function; none when its argument check fails. -/
def CardOp.turn (c : CardOp) : Option Turn :=
  match c.request with
  | .ok (code, params) => some (.hostCall code params)
  | .error _ => none

/-- R221: "returns no bytes" is `NoTarget` or an empty result (90_conflicts.md C7). -/
def versionOutcome : Result → CardOutcome
  | .noTarget => .failed .noDevice
  | .bytes [] => .failed .noDevice
  | .bytes (b :: rest) => .version (b :: rest)
  | .ackSentinel => .unsettled

/-- R223, on the result bytes. -/
def targetOutcome (res : Bytes) : CardOutcome :=
  match res[0]? with
  | none => .unsettled
  | some count =>
    if count ≠ 0x01#8 then .failed .multipleCardsDetected
    else match res[5]? with
      | none => .unsettled
      | some len =>
        if h : len.toNat ≤ maxUidLength then
          if res.length < 6 + len.toNat then .unsettled
          else .uid ⟨(res.drop 6).take len.toNat, (List.length_take_le _ _).trans h⟩
        else .failed .uidTooLong

/-- R224, R226: true iff the first response byte is 0, false otherwise; so false when there is no byte (for R226,
DEDUCED: log 22). -/
def flagOutcome (res : Bytes) : CardOutcome := .flag (decide (res[0]? = some 0x00#8))

/-- R225. -/
def readOutcome : Bytes → CardOutcome
  | [] => .unsettled
  | b :: rest =>
    if b ≠ 0x00#8 then .noData
    else if rest.length < blockSize then .unsettled
    else .data (rest.take blockSize)

/-- R228: the outcome of a function whose rule reads the result bytes; `NoTarget` is the sentinel. -/
def cardOutcome (ofBytes : Bytes → CardOutcome) : Result → CardOutcome
  | .bytes res => ofBytes res
  | .noTarget => .noTarget
  | .ackSentinel => .unsettled

/-- R220 to R226: the outcome of a function whose `CALL` ended with a result. A `configure_reader` succeeds with every
result, since its success is "simply a non-failing call" (R222; DEDUCED, log 22). -/
def CardOp.resultOutcome (c : CardOp) (r : Result) : CardOutcome :=
  match c with
  | .getFirmwareVersion => versionOutcome r
  | .configureReader => .configured
  | .discoverTarget _ => cardOutcome targetOutcome r
  | .authenticateBlock _ _ _ _ => cardOutcome flagOutcome r
  | .readBlock _ => cardOutcome readOutcome r
  | .writeBlock _ _ => cardOutcome flagOutcome r

/-- R220, R226: the outcome of a function, from its argument check or from how its `CALL` ended; an error of the
`CALL` passes through unchanged. -/
def CardOp.outcome (c : CardOp) (e : Ending) : CardOutcome :=
  match c.request with
  | .error k => .failed k
  | .ok _ =>
    match e with
    | .raised k => .failed k
    | .result r => c.resultOutcome r

/-! ## The operations exposed to external tooling (R229) -/

/-- What an initialize may add to reset and `INIT`: the two millisecond registers written unless their defaults are
wanted (70_reset_and_hazards.md R284), then `get_firmware_version` and `configure_reader` (R229). -/
structure InitOptions where
  ackTimeoutMs : Option (BitVec 16)
  retryIntervalMs : Option (BitVec 16)
  checkVersion : Bool
  configure : Bool
  deriving DecidableEq, Repr

/-- A host write of a 16-bit register, if a value is given. -/
def writeIfGiven (reg : Nat) : Option (BitVec 16) → List Turn
  | some v => [.hostWrite reg v.toNat]
  | none => []

/-- R229, R284 (DEDUCED, log 23): the host's own moves of initialize: reset, `OP = 6`, START, and the two millisecond registers. `INIT`
ends in its START step, so no wait stands between them. -/
def initializeTurns (rxq : Bytes) (o : InitOptions) : List Turn :=
  [.reset rxq, .hostWrite 0 Config.opInit.toNat, .hostWrite 4 1] ++
    writeIfGiven 2 o.ackTimeoutMs ++ writeIfGiven 3 o.retryIntervalMs

/-- The consumer-facing operations, "the only integration points external tooling may use" (R229). -/
inductive Exposed where
  | initializeDriver (rxq : Bytes) (options : InitOptions)
  | configureReader
  | discoverTarget (baudProfile : Byte)
  | authenticateBlock (uid : Uid) (block : Int) (keyType : Byte) (key : Key)
  | readBlock (block : Int)
  | writeBlock (block : Int) (data : Bytes)
  deriving DecidableEq, Repr

/-- R229: the moves an exposed operation makes before any `CALL`. -/
def Exposed.turns : Exposed → List Turn
  | .initializeDriver rxq options => initializeTurns rxq options
  | .configureReader => []
  | .discoverTarget _ => []
  | .authenticateBlock _ _ _ _ => []
  | .readBlock _ => []
  | .writeBlock _ _ => []

/-- R229: the consumer functions an exposed operation performs, each once the one before has ended. R229 is silent on an
initialize whose `get_firmware_version` fails (`NoDevice`, or an error of its `CALL`); that `configure_reader` still
follows is the model's choice (DESIGN CHOICE, unsafe, log 24). -/
def Exposed.ops : Exposed → List CardOp
  | .initializeDriver _ options =>
    (if options.checkVersion then [.getFirmwareVersion] else []) ++
      (if options.configure then [.configureReader] else [])
  | .configureReader => [.configureReader]
  | .discoverTarget baudProfile => [.discoverTarget baudProfile]
  | .authenticateBlock uid block keyType key => [.authenticateBlock uid block keyType key]
  | .readBlock block => [.readBlock block]
  | .writeBlock block data => [.writeBlock block data]

end Sys2Proof.Machine
end

