-- ==== Sys2Proof/Safety.lean ====
section
/-! DEFINITION. What claims are stated in: the safety predicate, the invariant of a running instance, runs of the
handshake against any device, and the shape of the transport history. -/

namespace Sys2Proof.Machine

/-- 60_exceptions.md R242: the safety predicate, `ERR ≠ 0`. `NoTarget` and `AckSentinel` do not count. -/
def State.wentWrong (s : State) : Prop := s.err ≠ none

/-- The phases after `FLUSH`, in which the operation has begun its attempts. -/
def Phase.attempting : Phase → Bool
  | .idle => false
  | .flush => false
  | .write => true
  | .poll => true
  | .expired => true
  | .backoff => true

/-- The invariant every step keeps, for the parameters `p`. -/
structure Inv (p : Params) (s : State) : Prop where
  /-- R37, R42: `IDLE` means no operation is running. -/
  busy_iff : s.busy = true ↔ s.phase ≠ .idle
  /-- R42 to R45, R47: while an operation runs nothing of an ending is shown. -/
  busy_clear : s.busy = true → s.done = false ∧ s.err = none ∧ s.rkind = .none ∧ s.obuf = []
  /-- R43 to R45: an ended operation shows an error or a result, and one that has not ended shows neither. -/
  done_iff : s.done = true ↔ (s.err ≠ none ∨ s.rkind ≠ .none)
  /-- R45, R252: the two channels are disjoint. -/
  err_no_result : s.err ≠ none → s.rkind = .none
  /-- R240: the block's `ERR` takes only the block's kinds. -/
  err_of_block : ∀ k, s.err = some k → k.ofBlock = true
  /-- R45, R252, R253: bytes are delivered with a `BYTES` result only. -/
  obuf_only_bytes : s.rkind ≠ .bytes → s.obuf = []
  /-- R41: while an operation runs, `OPL = OP`, and only the two multi-step operations are seen running (R37). -/
  opl_latched : s.busy = true → s.opl = s.op ∧ (s.opl = Config.opSendAwaitAck ∨ s.opl = Config.opCall)
  /-- R86, R172: the frame of a running `SEND_AWAIT_ACK` is `IBUF`. -/
  txf_send : s.busy = true → s.opl = Config.opSendAwaitAck → s.txf = s.ibuf
  /-- R86, R202: the frame of a running `CALL` is the encoded `[D4, CMD] ++ IBUF`. -/
  txf_call : s.busy = true → s.opl = Config.opCall → encodeFrame (callPayload s.cmd s.ibuf) = some s.txf
  /-- R174: an operation that still runs has found no acknowledgement. -/
  acc_no_ack : s.phase.attempting = true → contains s.acc Config.ack = false
  /-- R39, R174: a window that goes on has not reached its length, or has had no poll yet. -/
  timer_poll : s.phase = .poll → s.timer = 0 ∨ s.timer < s.ackTimeoutMs.toNat
  /-- R39: how far `TIMER` exceeds the window when it has expired. -/
  timer_expired : s.phase = .expired → s.ackTimeoutMs.toNat ≤ s.timer ∧
    (1 ≤ s.ackTimeoutMs.toNat → s.timer ≤ s.ackTimeoutMs.toNat + p.pollIntervalMs - 1) ∧
    (s.ackTimeoutMs.toNat = 0 → s.timer = p.pollIntervalMs)
  /-- R40: a frame has been written before a poll. -/
  att_pos : s.phase = .poll ∨ s.phase = .expired ∨ s.phase = .backoff → 1 ≤ s.att
  /-- R177: with `MAX_RETRIES = m` the frame is written at most `m + 1` times. -/
  att_bound : ∀ m, p.maxRetries = some m →
    (s.phase = .write ∨ s.phase = .backoff → s.att ≤ m) ∧
    (s.phase = .poll ∨ s.phase = .expired → s.att ≤ m + 1)

/-- `n` steps of the machine, up to the first that has no next state. -/
def steps : Nat → State → Outcome
  | 0, s => .next s
  | n + 1, s =>
    match step s with
    | .next t => steps n t
    | .fault f => .fault f
    | .refused r => .refused r

/-- What the environment does before one block step: bytes that arrive, and the level of `STOP`. -/
abbrev Env := Bytes × Bool

/-- One block step after the environment's move (R78, R178). -/
def envStep (p : Params) (s : State) (e : Env) : State := blockStep p (deviceArrives e.1 { s with stop := e.2 })

/-- Block steps against any environment, one move before each step. -/
def envRun (p : Params) (s : State) : List Env → State
  | [] => s
  | e :: rest => envRun p (envStep p s e) rest

/-- R180: the events of attempts, each a `Write` of the frame followed by its `Read`s. -/
def attemptEvents (txf : Bytes) : List (List Bytes) → List Event
  | [] => []
  | reads :: rest => Event.write txf :: reads.map Event.read ++ attemptEvents txf rest

end Sys2Proof.Machine
end

