-- ==== Sys2Proof/Certificates/Slice0/Obligations.lean ====
section
/-! DEFINITION. The statements for the provers. Each docstring names the rule of spec/ it is about. -/

open Sys2Proof Sys2Proof.Machine

/-! ## Bytes and the codec -/

/-- R106: for every length byte there is exactly one length checksum, `(256 - LEN) mod 256`, which is `256 - LEN` for
1 to 254; `LEN = 0` pairs with `00`, `LEN = 255` with `01`, `LEN = 02` with `FE`. -/
def Obligations.LengthChecksumIsTheOneByte : Prop :=
  (∀ len c : Byte, (len.toNat + c.toNat) % 256 = 0 ↔ c = lcs len) ∧
  (∀ len : Byte, (lcs len).toNat = (256 - len.toNat) % 256) ∧
  (∀ len : Byte, 1 ≤ len.toNat → len.toNat ≤ 254 → (lcs len).toNat = 256 - len.toNat ∧ 2 ≤ (lcs len).toNat) ∧
  lcs 0x00#8 = 0x00#8 ∧ lcs 0xFF#8 = 0x01#8 ∧ lcs 0x02#8 = 0xFE#8

/-- R142 (an inference of the spec): the checksum depends on the sum of the bytes alone. -/
def Obligations.ChecksumClosedForm : Prop :=
  (∀ d : Bytes, checksum d = neg8 (trunc8 (byteSum d))) ∧
  (∀ d : Bytes, (checksum d).toNat = (256 - byteSum d % 256) % 256) ∧
  (∀ d e : Bytes, d.Perm e → checksum d = checksum e) ∧
  (∀ d e : Bytes, checksum (d ++ e) = neg8 (trunc8 (byteSum d + byteSum e)))

/-- R143 (an inference of the spec): the validation law. -/
def Obligations.ChecksumValidatesItsOwnByteOnly : Prop :=
  ∀ (p : Bytes) (c : Byte),
    (checksum (p ++ [c]) = 0x00#8 ↔ (byteSum p + c.toNat) % 256 = 0) ∧
    (checksum (p ++ [c]) = 0x00#8 ↔ c = checksum p)

/-- R120, R100: the encoder refuses length 0 and length 255 or more, and what it emits is a frame of R100. -/
def Obligations.EncoderEmitsFramesOrRefuses : Prop :=
  (∀ p : Bytes, encodeEnding p = .raised .invalidPayloadSize ↔ p.length = 0 ∨ p.length ≥ 255) ∧
  (∀ p : Bytes, 1 ≤ p.length → p.length ≤ 254 →
    encodeEnding p = .result (.bytes
      ([0x00#8, 0x00#8, 0xFF#8, BitVec.ofNat 8 p.length, BitVec.ofNat 8 (256 - p.length)] ++ p ++
        [checksum p, 0x00#8])))

/-- R151 (an inference of the spec): facts about every frame the encoder builds. -/
def Obligations.EncodedFrameFacts : Prop :=
  ∀ p f : Bytes, encodeFrame p = some f →
    1 ≤ p.length ∧ p.length ≤ 254 ∧ f.length = p.length + 7 ∧ f.take 3 = [0x00#8, 0x00#8, 0xFF#8] ∧
    (f.getD 3 0).toNat = p.length ∧ ((f.getD 3 0).toNat + (f.getD 4 0).toNat) % 256 = 0 ∧
    (f.drop 5).take p.length = p ∧ (byteSum p + (f.getD (5 + p.length) 0).toNat) % 256 = 0 ∧
    f.getD (6 + p.length) 1 = 0x00#8 ∧ f ≠ Config.ack ∧ ¬ Config.ack <+: f

/-- R155: decoding an encoded payload gives it back. -/
def Obligations.DecodeOfEncodeIsThePayload : Prop :=
  ∀ p : Bytes, 1 ≤ p.length → p.length ≤ 254 →
    ∃ f, encodeFrame p = some f ∧ decodeEnding f = .result (.bytes p)

/-- R116, R117, R154, R156: the decoder accepts exactly the frames with one or more leading `00` bytes, a payload of
0 to 255 bytes, matching checksums, and anything after the payload checksum; and it recovers these parts. -/
def Obligations.DecoderAcceptsExactlyTheFrames : Prop :=
  ∀ (raw : Bytes) (zeros : Nat) (payload tail : Bytes),
    parse raw = .frame zeros payload tail ↔
      1 ≤ zeros ∧ payload.length ≤ 255 ∧
      raw = List.replicate zeros 0x00#8 ++
        [0xFF#8, BitVec.ofNat 8 payload.length, BitVec.ofNat 8 (256 - payload.length)] ++ payload ++
        [checksum payload] ++ tail

/-- R119: the table of rejections, row by row, on a sequence that is not `ACK`. -/
def Obligations.DecoderRejectsByTheTable : Prop :=
  decodeEnding [] = .raised .malformedPreamble ∧
  (∀ (b : Byte) (r : Bytes), b ≠ 0x00#8 → decodeEnding (b :: r) = .raised .malformedPreamble) ∧
  (∀ k : Nat, decodeEnding (List.replicate k 0x00#8) = .raised .malformedPreamble) ∧
  (∀ (k : Nat) (b : Byte) (r : Bytes), b ≠ 0x00#8 → b ≠ 0xFF#8 →
    decodeEnding (List.replicate k 0x00#8 ++ b :: r) = .raised .malformedPreamble) ∧
  (∀ (k : Nat) (r : Bytes), 1 ≤ k → r.length < 2 →
    decodeEnding (List.replicate k 0x00#8 ++ 0xFF#8 :: r) = .raised .lengthChecksumMismatch) ∧
  (∀ (k : Nat) (len lc : Byte) (r : Bytes), 1 ≤ k → (len.toNat + lc.toNat) % 256 ≠ 0 →
    List.replicate k 0x00#8 ++ 0xFF#8 :: len :: lc :: r ≠ Config.ack →
    decodeEnding (List.replicate k 0x00#8 ++ 0xFF#8 :: len :: lc :: r) = .raised .lengthChecksumMismatch) ∧
  (∀ (k : Nat) (len lc : Byte) (r : Bytes), 1 ≤ k → (len.toNat + lc.toNat) % 256 = 0 → r.length < len.toNat + 1 →
    decodeEnding (List.replicate k 0x00#8 ++ 0xFF#8 :: len :: lc :: r) = .raised .payloadChecksumMismatch) ∧
  (∀ (k : Nat) (len lc : Byte) (p : Bytes) (dcs : Byte) (r : Bytes), 1 ≤ k → (len.toNat + lc.toNat) % 256 = 0 →
    p.length = len.toNat → checksum (p ++ [dcs]) ≠ 0x00#8 →
    decodeEnding (List.replicate k 0x00#8 ++ 0xFF#8 :: len :: lc :: (p ++ dcs :: r)) = .raised .payloadChecksumMismatch)

/-- R152, R153: the decoder that `DECODE` runs is the index walk the spec prints, on every byte sequence. -/
def Obligations.DecoderIsTheIndexWalk : Prop := ∀ raw : Bytes, decodeEnding raw = decodeWalk raw

/-- R105 (an inference of the spec): what begins with `ACK` and is longer is a length-checksum error, and `ACK` alone
is the sentinel. -/
def Obligations.AckWithMoreBytesIsNoSentinel : Prop :=
  decodeEnding Config.ack = .result .ackSentinel ∧
  (∀ (x : Byte) (r : Bytes), decodeEnding (Config.ack ++ x :: r) = .raised .lengthChecksumMismatch) ∧
  (∀ raw : Bytes, decodeEnding raw = .result .ackSentinel → raw = Config.ack)

/-- R175: the detector finds the six bytes contiguously at any offset, also when a read completes them. -/
def Obligations.DetectorFindsAckAtAnyOffset : Prop :=
  (∀ acc : Bytes, contains acc Config.ack = true ↔ ∃ a b, acc = a ++ [0x00#8, 0x00#8, 0xFF#8, 0x00#8, 0xFF#8, 0x00#8] ++ b) ∧
  (∀ (p : Params) (s : State), s.phase = .poll →
    ((∃ a b, s.acc ++ s.rxq = a ++ [0x00#8, 0x00#8, 0xFF#8, 0x00#8, 0xFF#8, 0x00#8] ++ b) ↔
      (blockStep p s).phase = .idle))

/-- R176, R185, R299: `strip` removes whole occurrences of `ACK`, left to right, and nothing else; what it leaves is
the pending response, which is never empty. -/
def Obligations.StripRemovesAcknowledgements : Prop :=
  (∀ b : Bytes, strip (Config.ack ++ b) = strip b) ∧
  (∀ (x : Byte) (b : Bytes), ¬ Config.ack <+: x :: b → strip (x :: b) = x :: strip b) ∧
  (∀ b : Bytes, strip b = b ↔ contains b Config.ack = false) ∧
  (∀ b : Bytes, ∃ n, b.length = (strip b).length + 6 * n ∧ (n = 0 ↔ contains b Config.ack = false)) ∧
  (∀ b : Bytes, (strip b ≠ [] → pending b = strip b) ∧ (strip b = [] → pending b = Config.ack) ∧ pending b ≠ [])

/-- R204, R205, R207, R208: how a `CALL` ends, from its pending response: a decoder error first, then the sentinel as
`NoTarget`, then the header check with `CMD + 1` not wrapping, then the result bytes. -/
def Obligations.CallEndingsInOrder : Prop :=
  ∀ (cmd : Byte) (pend : Bytes),
    (∀ k, decodeWalk pend = .raised k → callEnding cmd pend = .raised k) ∧
    (decodeWalk pend = .result .ackSentinel → callEnding cmd pend = .result .noTarget) ∧
    (∀ d, decodeWalk pend = .result (.bytes d) →
      (d.length < 2 → callEnding cmd pend = .raised .unexpectedResponse) ∧
      (∀ tag code r, d = tag :: code :: r →
        (tag ≠ 0xD5#8 ∨ code.toNat ≠ cmd.toNat + 1 → callEnding cmd pend = .raised .unexpectedResponse) ∧
        (tag = 0xD5#8 → code.toNat = cmd.toNat + 1 → callEnding cmd pend = .result (.bytes r))))

/-! ## Encodings of the opcode table -/

/-- R121, R100, R104, R113: words written out from the tables decode to the rows they stand for. -/
def Obligations.TableWordsDecode : Prop :=
  decode (.op 0b001#3) = .ok .checksum ∧ decode (.op 0b010#3) = .ok .encode ∧ decode (.op 0b011#3) = .ok .decode ∧
  decode (.op 0b100#3) = .ok .sendAwaitAck ∧ decode (.op 0b101#3) = .ok .call ∧ decode (.op 0b110#3) = .ok .init ∧
  decode (.op 0b000#3) = .error .reservedOp ∧ decode (.op 0b111#3) = .error .reservedOp ∧
  decode (.wire [0x00, 0x00, 0xFF, 0x00, 0xFF, 0x00]) = .ok .ackFrame ∧
  decode (.wire [0x00, 0x00, 0xFF, 0x02, 0xFE, 0xD4, 0x02, 0x2A, 0x00]) = .ok (.infoFrame 2 [0xD4, 0x02] [0x00]) ∧
  decode (.payload [0xD4, 0x4A, 0x01, 0x00]) = .ok (.listPassiveTargetReq [0x01, 0x00]) ∧
  decode (.payload [0xD5, 0x41, 0x00]) = .ok (.dataExchangeRsp [0x00])

/-- R113: the two leading payload bytes of each listed request and of its response, as the decoder reads them. -/
def Obligations.PayloadHeadersOfTheListedCommands : Prop :=
  ∀ d : Bytes,
    decode (.payload ([0xD4#8, 0x02#8] ++ d)) = .ok (.firmwareVersionReq d) ∧
    decode (.payload ([0xD4#8, 0x14#8] ++ d)) = .ok (.samConfigurationReq d) ∧
    decode (.payload ([0xD4#8, 0x4A#8] ++ d)) = .ok (.listPassiveTargetReq d) ∧
    decode (.payload ([0xD4#8, 0x40#8] ++ d)) = .ok (.dataExchangeReq d) ∧
    (d.length ≤ 253 →
      decode (.payload ([0xD5#8, 0x03#8] ++ d)) = .ok (.firmwareVersionRsp d) ∧
      decode (.payload ([0xD5#8, 0x15#8] ++ d)) = .ok (.samConfigurationRsp d) ∧
      decode (.payload ([0xD5#8, 0x4B#8] ++ d)) = .ok (.listPassiveTargetRsp d) ∧
      decode (.payload ([0xD5#8, 0x41#8] ++ d)) = .ok (.dataExchangeRsp d))

/-- R100, R104, R113, R116, R121: decoding an encoded well-formed instruction gives it back, every operand at every
value the encoding admits. -/
def Obligations.DecodeEncodeRoundTrip : Prop := ∀ i : Instr, i.wf = true → decode (encode i) = .ok i

/-- R100, R104, R113, R116, R121: each word has one meaning: what decodes is well formed and is that word's encoding,
so no bit of it is dropped. -/
def Obligations.EncodeDecodeRoundTrip : Prop := ∀ (e : Encoded) (i : Instr), decode e = .ok i → i.wf = true ∧ encode i = e

/-! ## What each instruction does -/

/-- R140: a START with `OP = 1` while idle writes the complement of the accumulation and the flags, and nothing else.
`OPL` and `PHASE` as R41 and R37 say (DEDUCED, log 17). -/
def Obligations.ChecksumCompletes : Prop :=
  ∀ s : State, s.busy = false →
    exec .checksum s = .next { s with
      obuf := [~~~ (s.ibuf.foldl (fun a b => a + b) 0xFF#8)], rkind := .bytes, err := none, done := true,
      busy := false, opl := 1#3, phase := .idle }

/-- R150, R252: a START with `OP = 2` while idle: the frame, or `InvalidPayloadSize`. `OPL` and `PHASE` as R41 and R37 say
(DEDUCED, log 17). -/
def Obligations.EncodeCompletes : Prop :=
  ∀ s : State, s.busy = false →
    (1 ≤ s.ibuf.length → s.ibuf.length ≤ 254 →
      exec .encode s = .next { s with
        obuf := [0x00#8, 0x00#8, 0xFF#8, BitVec.ofNat 8 s.ibuf.length, BitVec.ofNat 8 (256 - s.ibuf.length)] ++ s.ibuf ++
          [checksum s.ibuf, 0x00#8],
        rkind := .bytes, err := none, done := true, busy := false, opl := 2#3, phase := .idle }) ∧
    (s.ibuf.length = 0 ∨ s.ibuf.length ≥ 255 →
      exec .encode s = .next { s with
        obuf := [], rkind := .none, err := some .invalidPayloadSize, done := true, busy := false, opl := 2#3,
        phase := .idle })

/-- R152, R153: a START with `OP = 3` while idle ends as the spec's index walk says, in each of the three channels.
`OPL` and `PHASE` as R41 and R37 say (DEDUCED, log 17). -/
def Obligations.DecodeCompletes : Prop :=
  ∀ s : State, s.busy = false →
    (decodeWalk s.ibuf = .result .ackSentinel →
      exec .decode s = .next { s with
        obuf := [], rkind := .ackSentinel, err := none, done := true, busy := false, opl := 3#3, phase := .idle }) ∧
    (∀ d, decodeWalk s.ibuf = .result (.bytes d) →
      exec .decode s = .next { s with
        obuf := d, rkind := .bytes, err := none, done := true, busy := false, opl := 3#3, phase := .idle }) ∧
    (∀ k, decodeWalk s.ibuf = .raised k →
      exec .decode s = .next { s with
        obuf := [], rkind := .none, err := some k, done := true, busy := false, opl := 3#3, phase := .idle }) ∧
    decodeWalk s.ibuf ≠ .result .noTarget

/-- R172: a START with `OP = 4` while idle. -/
def Obligations.SendAwaitAckStarts : Prop :=
  ∀ s : State, s.busy = false →
    exec .sendAwaitAck s = .next { s with
      busy := true, done := false, err := none, rkind := .none, obuf := [], opl := 4#3, txf := s.ibuf, phase := .flush }

/-- R202, R209: a START with `OP = 5` while idle: the frame of `[D4, CMD] ++ IBUF` goes to `TXF`, or, when `IBUF` is
longer than 252 bytes, `InvalidPayloadSize` before any transport primitive. -/
def Obligations.CallStarts : Prop :=
  ∀ s : State, s.busy = false →
    (s.ibuf.length ≤ 252 →
      exec .call s = .next { s with
        busy := true, done := false, err := none, rkind := .none, obuf := [], opl := 5#3,
        txf := buildFrame (0xD4#8 :: s.cmd :: s.ibuf), phase := .flush }) ∧
    (s.ibuf.length > 252 →
      exec .call s = .next { s with
        busy := false, done := true, err := some .invalidPayloadSize, rkind := .none, obuf := [], opl := 5#3,
        phase := .idle })

/-- R206: a START with `OP = 6` while idle, whatever the wake-up bytes are. `OPL` and `PHASE` as R41 and R37 say (DEDUCED,
log 17). -/
def Obligations.InitCompletes : Prop :=
  ∀ s : State, s.busy = false →
    exec .init s = .next { s with
      hist := s.hist ++ [.write Config.params.wakeup], inited := true, obuf := [], rkind := .bytes, err := none,
      done := true, busy := false, opl := 6#3, phase := .idle }

/-- R113, R123, R202 (log 1, the model's reading of these rows): a request row while idle writes `OP`, `CMD` and `IBUF`
and starts the `CALL` of its command, whose frame carries the row's payload. -/
def Obligations.RequestRowsStartTheirCall : Prop :=
  ∀ (s : State) (ps : Bytes), s.busy = false →
    let started (code : Byte) : State := { s with
      op := 5#3, cmd := code, ibuf := ps, busy := true, done := false, err := none, rkind := .none, obuf := [],
      opl := 5#3, txf := buildFrame (0xD4#8 :: code :: ps), phase := .flush }
    let refused (code : Byte) : State := { s with
      op := 5#3, cmd := code, ibuf := ps, busy := false, done := true, err := some .invalidPayloadSize, rkind := .none,
      obuf := [], opl := 5#3, phase := .idle }
    (ps.length ≤ 252 →
      exec (.firmwareVersionReq ps) s = .next (started 0x02#8) ∧
      exec (.samConfigurationReq ps) s = .next (started 0x14#8) ∧
      exec (.listPassiveTargetReq ps) s = .next (started 0x4A#8) ∧
      exec (.dataExchangeReq ps) s = .next (started 0x40#8)) ∧
    (ps.length > 252 →
      exec (.firmwareVersionReq ps) s = .next (refused 0x02#8) ∧
      exec (.samConfigurationReq ps) s = .next (refused 0x14#8) ∧
      exec (.listPassiveTargetReq ps) s = .next (refused 0x4A#8) ∧
      exec (.dataExchangeReq ps) s = .next (refused 0x40#8))

/-- R78, R100, R104, R113 (log 1, the model's reading of these rows): what the device sends joins `RXQ`, in order, and
nothing else changes. -/
def Obligations.DeviceRowsArrive : Prop :=
  ∀ s : State,
    (∀ (zeros : Nat) (payload tail : Bytes), payload.length ≤ 255 →
      exec (.infoFrame zeros payload tail) s = .next { s with
        rxq := s.rxq ++ (List.replicate zeros 0x00#8 ++
          [0xFF#8, BitVec.ofNat 8 payload.length, BitVec.ofNat 8 (256 - payload.length)] ++ payload ++
          [checksum payload] ++ tail) }) ∧
    exec .ackFrame s = .next { s with rxq := s.rxq ++ [0x00#8, 0x00#8, 0xFF#8, 0x00#8, 0xFF#8, 0x00#8] } ∧
    (∀ r : Bytes,
      exec (.firmwareVersionRsp r) s = .next { s with rxq := s.rxq ++ buildFrame ([0xD5#8, 0x03#8] ++ r) } ∧
      exec (.samConfigurationRsp r) s = .next { s with rxq := s.rxq ++ buildFrame ([0xD5#8, 0x15#8] ++ r) } ∧
      exec (.listPassiveTargetRsp r) s = .next { s with rxq := s.rxq ++ buildFrame ([0xD5#8, 0x4B#8] ++ r) } ∧
      exec (.dataExchangeRsp r) s = .next { s with rxq := s.rxq ++ buildFrame ([0xD5#8, 0x41#8] ++ r) })

/-- R36, R296: a START of one of the six operations while `BUSY = 1` is ignored and changes no state. That a request row
is a `CALL` line, which `BUSY = 1` turns away whole, is the model's choice (log 1). -/
def Obligations.StartWhileBusyChangesNothing : Prop :=
  ∀ (s : State) (ps : Bytes), s.busy = true →
    ∀ i ∈ [Instr.checksum, .encode, .decode, .sendAwaitAck, .call, .init, .firmwareVersionReq ps, .samConfigurationReq ps,
      .listPassiveTargetReq ps, .dataExchangeReq ps], exec i s = .next s

/-! ## The steps of the handshake -/

/-- R172, R75: the `FLUSH` step. -/
def Obligations.FlushStepEffect : Prop :=
  ∀ (p : Params) (s : State), s.phase = .flush →
    blockStep p s = { s with hist := s.hist ++ [.flush s.rxq], rxq := [], acc := [], att := 0, phase := .write }

/-- R173, R76: the `WRITE` step, for both values of `ACC_CLEAR_ON_RETRY`. -/
def Obligations.WriteStepEffect : Prop :=
  ∀ (p : Params) (s : State), s.phase = .write →
    (p.accClearOnRetry = false → blockStep p s = { s with
      hist := s.hist ++ [.write s.txf], att := s.att + 1, timer := 0, phase := .poll }) ∧
    (p.accClearOnRetry = true → blockStep p s = { s with
      acc := [], hist := s.hist ++ [.write s.txf], att := s.att + 1, timer := 0, phase := .poll })

/-- R174, R176, R203, R204, R255, R77: the `POLL` step: wait, count, read, append; then success, else expiry, else
another poll. -/
def Obligations.PollStepEffect : Prop :=
  ∀ (p : Params) (s : State), s.phase = .poll →
    let t : State := { s with
      acc := s.acc ++ s.rxq, hist := s.hist ++ [.read s.rxq], rxq := [], timer := s.timer + p.pollIntervalMs,
      waitedMs := s.waitedMs + p.pollIntervalMs }
    (contains t.acc Config.ack = true → s.opl = 4#3 → blockStep p s = { t with
      obuf := pending t.acc, rkind := .bytes, err := none, done := true, busy := false, phase := .idle }) ∧
    (contains t.acc Config.ack = true → s.opl = 5#3 →
      (∀ r, callEnding s.cmd (pending t.acc) = .result (.bytes r) → blockStep p s = { t with
        obuf := r, rkind := .bytes, err := none, done := true, busy := false, phase := .idle }) ∧
      (callEnding s.cmd (pending t.acc) = .result .noTarget → blockStep p s = { t with
        obuf := [], rkind := .noTarget, err := none, done := true, busy := false, phase := .idle }) ∧
      (∀ k, callEnding s.cmd (pending t.acc) = .raised k → blockStep p s = { t with
        obuf := [], rkind := .none, err := some k, done := true, busy := false, phase := .idle }) ∧
      callEnding s.cmd (pending t.acc) ≠ .result .ackSentinel) ∧
    (contains t.acc Config.ack = false → s.ackTimeoutMs.toNat ≤ t.timer → blockStep p s = { t with phase := .expired }) ∧
    (contains t.acc Config.ack = false → t.timer < s.ackTimeoutMs.toNat → blockStep p s = t)

/-- R177, R178, R252: the `EXPIRED` step. -/
def Obligations.ExpiredStepEffect : Prop :=
  ∀ (p : Params) (s : State), s.phase = .expired →
    let timedOut : State := { s with
      obuf := [], rkind := .none, err := some .handshakeTimeout, done := true, busy := false, phase := .idle }
    (s.stop = true → blockStep p s = timedOut) ∧
    (∀ m, s.stop = false → p.maxRetries = some m → s.att > m → blockStep p s = timedOut) ∧
    (∀ m, s.stop = false → p.maxRetries = some m → s.att ≤ m → blockStep p s = { s with phase := .backoff }) ∧
    (s.stop = false → p.maxRetries = none → blockStep p s = { s with phase := .backoff })

/-- R179, R262, R282: the `BACKOFF` step waits and reads nothing; in `IDLE` nothing runs. -/
def Obligations.BackoffStepEffect : Prop :=
  (∀ (p : Params) (s : State), s.phase = .backoff →
    blockStep p s = { s with waitedMs := s.waitedMs + s.retryIntervalMs.toNat, phase := .write }) ∧
  (∀ (p : Params) (s : State), s.phase = .idle → blockStep p s = s)

/-- R186: once an acknowledgement is in `ACC` the operation ends and the frame is not written again, whatever the
response contains; a write is reached from `FLUSH` and, after an expiry without acknowledgement, from `BACKOFF`. -/
def Obligations.OnlyAMissingAcknowledgementIsRetried : Prop :=
  (∀ (p : Params) (s : State), s.phase = .poll → contains (s.acc ++ s.rxq) Config.ack = true →
    (blockStep p s).phase = .idle ∧ (blockStep p s).busy = false ∧
    (blockStep p s).hist = s.hist ++ [.read s.rxq]) ∧
  (∀ (p : Params) (s : State), s.phase ≠ .write → (blockStep p s).phase = .write → s.phase = .flush ∨ s.phase = .backoff) ∧
  (∀ (p : Params) (s : State), (blockStep p s).phase = .backoff → s.phase ≠ .backoff → s.phase = .expired) ∧
  (∀ (p : Params) (s : State), (blockStep p s).phase = .expired → s.phase ≠ .expired →
    s.phase = .poll ∧ contains (s.acc ++ s.rxq) Config.ack = false)

/-- R178: `STOP` is looked at in the `EXPIRED` step and nowhere else. -/
def Obligations.StopIsSampledOnlyAtExpiry : Prop :=
  (∀ (p : Params) (s : State) (level : Bool), s.phase ≠ .expired →
    blockStep p { s with stop := level } = { blockStep p s with stop := level }) ∧
  (∀ (i : Instr) (s t : State) (level : Bool), exec i s = .next t →
    exec i { s with stop := level } = .next { t with stop := level })

/-! ## The machine -/

/-- A step runs the decoded instruction: for a START, a `CALL` line, a `device:` line and a response line, the step is
`exec` of the instruction with the turn taken off the schedule (R36, R121, R123; log 2, log 10). -/
def Obligations.StepRunsTheDecodedInstruction : Prop :=
  ∀ (s : State) (rest : List Turn) (i : Instr),
    (∀ v, s.sched = .hostWrite 4 v :: rest → v % 2 = 1 → decode (.op s.op) = .ok i →
      step s = exec i { s with sched := rest }) ∧
    (∀ raw, s.sched = .device raw :: rest → decode (.wire raw) = .ok i → step s = exec i { s with sched := rest }) ∧
    (∀ code ps, s.sched = .hostCall code ps :: rest → decode (.payload (0xD4#8 :: code :: ps)) = .ok i →
      step s = exec i { s with sched := rest }) ∧
    (∀ code r, s.sched = .deviceRespond code r :: rest → decode (.payload (0xD5#8 :: code :: r)) = .ok i →
      step s = exec i { s with sched := rest })

/-- The block's own steps: a block turn, or an empty schedule, is one `blockStep` with this machine's parameters (R37;
log 2). -/
def Obligations.StepRunsTheBlock : Prop :=
  (∀ s : State, s.sched = [] → step s = .next (blockStep Config.params s)) ∧
  (∀ (s : State) (rest : List Turn), s.sched = .block :: rest →
    step s = .next (blockStep Config.params { s with sched := rest })) ∧
  1 ≤ Config.params.pollIntervalMs

/-- A table row's word placed with `withFetchWord` is run by the very next step (log 9, log 10). -/
def Obligations.PlacedRowRunsNext : Prop :=
  ∀ (s : State) (nbits w : Nat) (i : Instr), decodeTableWord nbits w = some i →
    step (s.withFetchWord nbits w) = exec i { s.withFetchWord nbits w with sched := s.sched }

/-- R121, R36: a START with a reserved `OP` changes no state (but the turn is taken). That a write of `CTRL` with bit 0
clear, whatever its other bits, changes nothing either is the model's choice (log 15: it looks at bit 0 alone). -/
def Obligations.ReservedStartChangesNothing : Prop :=
  ∀ (s : State) (rest : List Turn) (v : Nat), s.sched = .hostWrite 4 v :: rest →
    (s.op = 0#3 ∨ s.op = 7#3 ∨ v % 2 = 0) → step s = .next { s with sched := rest }

/-- R60: the reset value of every piece of state the table names. -/
def Obligations.ResetLeavesTheTableValues : Prop :=
  let r := State.reset
  r.op = 0#3 ∧ r.opl = 0#3 ∧ r.cmd = 0x00#8 ∧
  r.ackTimeoutMs = Config.params.ackTimeoutDefault ∧ r.retryIntervalMs = Config.params.retryIntervalDefault ∧
  r.phase = .idle ∧ r.timer = 0 ∧ r.att = 0 ∧ r.busy = false ∧ r.done = false ∧ r.err = none ∧ r.rkind = .none ∧
  r.inited = false ∧ r.ibuf = [] ∧ r.obuf = [] ∧ r.txf = [] ∧ r.acc = [] ∧ r.hist = [] ∧ r.status = 0x00#8

/-- R280, R281: the reset input abandons a running operation: no result, no error code, `BUSY = 0`; every register is
at its reset value and `RXQ` holds whatever the turn says. That `STOP` keeps its level and the model's own fields go
on is the model's choice (log 16). -/
def Obligations.ResetAbandonsTheOperation : Prop :=
  ∀ (s : State) (rxq : Bytes) (rest : List Turn), s.sched = .reset rxq :: rest →
    ∃ t, step s = .next t ∧
      t = { State.reset with rxq := rxq, stop := s.stop, sched := rest, freeCount := s.freeCount } ∧
      t.busy = false ∧ t.err = none ∧ t.rkind = .none ∧ t.phase = .idle

/-- R32 to R35, R47, R36: what an idle host's register writes do, and that they are all they change. That a
shorter `ILEN` keeps the front of `IBUF` is DEDUCED (log 8, unsafe), and the bytes of a lengthened one are free (log 8);
an `ILEN` of 65536 or more is left out (log 15). Low bits kept and read-only writes ignored are the model's (log 15).
A step at such a turn is that write (log 2), and a step at a `STOP` turn sets the level and nothing else (R36, R245). -/
def Obligations.HostWritesSetOperands : Prop :=
  (∀ (s : State) (reg v : Nat) (rest : List Turn), s.sched = .hostWrite reg v :: rest →
    step s = hostWriteReg reg v { s with sched := rest }) ∧
  (∀ (s : State) (level : Bool) (rest : List Turn), s.sched = .hostStop level :: rest →
    step s = .next { s with sched := rest, stop := level }) ∧
  ∀ (s : State) (v : Nat), s.busy = false →
    hostWriteReg 0 v s = .next { s with op := BitVec.ofNat 3 v } ∧
    hostWriteReg 1 v s = .next { s with cmd := BitVec.ofNat 8 v } ∧
    hostWriteReg 2 v s = .next { s with ackTimeoutMs := BitVec.ofNat 16 v } ∧
    hostWriteReg 3 v s = .next { s with retryIntervalMs := BitVec.ofNat 16 v } ∧
    hostWriteReg 5 v s = .next s ∧ hostWriteReg 6 v s = .next s ∧ hostWriteReg 8 v s = .next s ∧
    (v < 65536 → ∃ fill, hostWriteReg 7 v s = .next { s with
        ibuf := s.ibuf.take v ++ fill, freeCount := s.freeCount + fill.length } ∧
      (s.ibuf.take v ++ fill).length = v)

/-- R32 to R36, R42 to R47: what the host reads from each register. That the bits of registers 4 and 6 which no rule names
read as 0, and that a read gives the same while `BUSY = 1`, is the model's choice (log 20). R47 gives `ILEN` and `OLEN`
LW = 16 bits; that they read as the full length past 16 bits too is the model's (DEDUCED, unsafe, log 11; D12 lets a model
hold the length registers as natural numbers). -/
def Obligations.HostReadsRegisters : Prop :=
  ∀ s : State,
    s.readReg 0 = some s.op.toNat ∧ s.readReg 1 = some s.cmd.toNat ∧ s.readReg 2 = some s.ackTimeoutMs.toNat ∧
    s.readReg 3 = some s.retryIntervalMs.toNat ∧ s.readReg 4 = some 0 ∧
    s.readReg 5 = some (16 * (errCode s.err).toNat + 4 * s.rkind.code.toNat + 2 * s.done.toNat + s.busy.toNat) ∧
    s.readReg 6 = some s.inited.toNat ∧ s.readReg 7 = some s.ibuf.length ∧ s.readReg 8 = some s.obuf.length

/-- R12, R36, R47: the host's buffer accesses. A read of `IBUF` or `OBUF` inside the buffer, in every state, gives exactly
its bytes, and `TXF` and `ACC` have no host access; a write into `IBUF` of an idle block puts the bytes at the offset and
leaves every other byte, and every other field, alone; a whole write replaces `IBUF`; while an operation runs every host
write, START included, changes nothing. A step at a buffer turn is that write (log 2). That a read beyond the end gives
none, and that a write to `STATUS`, `INITED` or `OLEN` changes nothing, is the model's choice (log 15). That a read
gives the held bytes while `BUSY = 1` too is the model's choice (log 20). -/
def Obligations.HostBufferAccesses : Prop :=
  (∀ (s : State) (off n : Nat),
    (off + n ≤ s.ibuf.length → ∃ r, s.hostReadBuffer .ibuf off n = some r ∧ r.length = n ∧
      ∀ k, k < n → r[k]? = s.ibuf[off + k]?) ∧
    (off + n ≤ s.obuf.length → ∃ r, s.hostReadBuffer .obuf off n = some r ∧ r.length = n ∧
      ∀ k, k < n → r[k]? = s.obuf[off + k]?) ∧
    (off + n > s.ibuf.length → s.hostReadBuffer .ibuf off n = none) ∧
    (off + n > s.obuf.length → s.hostReadBuffer .obuf off n = none) ∧
    s.hostReadBuffer .txf off n = none ∧ s.hostReadBuffer .acc off n = none) ∧
  (∀ (s : State) (off : Nat) (v : Bytes), s.busy = false → off + v.length ≤ s.ibuf.length →
    ∃ buf, hostPatch off v s = .next { s with ibuf := buf } ∧ buf.length = s.ibuf.length ∧
      (∀ k, k < v.length → buf[off + k]? = v[k]?) ∧
      (∀ k, k < off ∨ off + v.length ≤ k → buf[k]? = s.ibuf[k]?)) ∧
  (∀ (s : State) (v : Bytes), s.busy = false → setIbuf v s = { s with ibuf := v }) ∧
  (∀ (s : State) (off reg value : Nat) (v : Bytes), s.busy = true →
    setIbuf v s = s ∧ hostPatch off v s = .next s ∧ (reg ≤ 8 → hostWriteReg reg value s = .next s)) ∧
  (∀ (s : State) (v : Bytes) (rest : List Turn), s.sched = .hostSetIbuf v :: rest →
    step s = .next (setIbuf v { s with sched := rest })) ∧
  (∀ (s : State) (off : Nat) (v : Bytes) (rest : List Turn), s.sched = .hostPatchIbuf off v :: rest →
    step s = hostPatch off v { s with sched := rest })

/-- R240, R122: the codes of the error kinds and of the result kinds. -/
def Obligations.StatusCodes : Prop :=
  errCode none = 0#4 ∧ errCode (some .invalidPayloadSize) = 1#4 ∧ errCode (some .malformedPreamble) = 2#4 ∧
  errCode (some .lengthChecksumMismatch) = 3#4 ∧ errCode (some .payloadChecksumMismatch) = 4#4 ∧
  errCode (some .unexpectedResponse) = 5#4 ∧ errCode (some .invalidParameterType) = 6#4 ∧
  errCode (some .noDevice) = 7#4 ∧ errCode (some .multipleCardsDetected) = 8#4 ∧ errCode (some .uidTooLong) = 9#4 ∧
  errCode (some .invalidBlockSize) = 10#4 ∧ errCode (some .handshakeTimeout) = 11#4 ∧
  ResultKind.code .none = 0#2 ∧ ResultKind.code .bytes = 1#2 ∧ ResultKind.code .ackSentinel = 2#2 ∧
  ResultKind.code .noTarget = 3#2

/-- R15, R242, R14: however an operation ends, the host reads that ending back from `DONE`, `ERR`, `RKIND` and `OBUF`:
the result channels and the error channel do not overlap, and the safety predicate counts errors alone. -/
def Obligations.EndingsAreReadBack : Prop :=
  ∀ (e : Ending) (s : State),
    (endWith e s).ending = some e ∧ ((endWith e s).wentWrong ↔ ∃ k, e = .raised k) ∧
    (endWith e s).busy = false ∧ (endWith e s).phase = .idle

/-- R36, R86, R296: while an operation runs, no move but reset changes its operands, its latched operation or the frame
it sends. -/
def Obligations.RunningOperationKeepsItsOperands : Prop :=
  ∀ s t : State, s.busy = true → step s = .next t → (∀ rxq, s.sched.head? ≠ some (.reset rxq)) →
    t.op = s.op ∧ t.opl = s.opl ∧ t.cmd = s.cmd ∧ t.ackTimeoutMs = s.ackTimeoutMs ∧
    t.retryIntervalMs = s.retryIntervalMs ∧ t.ibuf = s.ibuf ∧ t.txf = s.txf

/-- R51: no operation, and no step of one, writes `IBUF`, `OP`, `CMD`, `ACK_TIMEOUT_MS` or `RETRY_INTERVAL_MS`; the
pure operations and `INIT` leave `TXF`, `ACC`, `TIMER`, `ATT` and `RXQ` alone, and the pure ones `HIST` and `INITED`. -/
def Obligations.OperationsWriteOnlyTheirOwnState : Prop :=
  (∀ (p : Params) (s : State), let t := blockStep p s
    t.ibuf = s.ibuf ∧ t.op = s.op ∧ t.cmd = s.cmd ∧ t.ackTimeoutMs = s.ackTimeoutMs ∧
    t.retryIntervalMs = s.retryIntervalMs ∧ t.inited = s.inited ∧ t.txf = s.txf) ∧
  (∀ (s t : State), ∀ i ∈ [Instr.checksum, .encode, .decode, .sendAwaitAck, .call, .init], exec i s = .next t →
    t.ibuf = s.ibuf ∧ t.op = s.op ∧ t.cmd = s.cmd ∧ t.ackTimeoutMs = s.ackTimeoutMs ∧
    t.retryIntervalMs = s.retryIntervalMs ∧ t.acc = s.acc ∧ t.timer = s.timer ∧ t.att = s.att ∧ t.rxq = s.rxq ∧
    (i ≠ .init → t.hist = s.hist ∧ t.inited = s.inited) ∧ (i ≠ .sendAwaitAck → i ≠ .call → t.txf = s.txf))

/-- R78, R80, R82: a device's move changes `RXQ` alone, by exactly the bytes it sends, at its end, whether or not they
are a frame. -/
def Obligations.DeviceBytesArriveUnchanged : Prop :=
  ∀ (s : State) (raw : Bytes) (rest : List Turn), s.sched = .device raw :: rest →
    step s = .next { s with sched := rest, rxq := s.rxq ++ raw }

/-- R49, R82: the history only grows, but for reset. -/
def Obligations.HistoryOnlyGrows : Prop :=
  ∀ s t : State, step s = .next t → (∀ rxq, s.sched.head? ≠ some (.reset rxq)) → ∃ events, t.hist = s.hist ++ events

/-- R46, its converse half: `INITED` is set only by an accepted `INIT` and cleared only by reset. That `INIT` sets it is
`InitCompletes`, that reset clears it `ResetAbandonsTheOperation`. -/
def Obligations.InitedIsSetByInitOnly : Prop :=
  ∀ s t : State, step s = .next t →
    (s.inited = true → (∀ rxq, s.sched.head? ≠ some (.reset rxq)) → t.inited = true) ∧
    (s.inited = false → t.inited = true →
      s.op = 6#3 ∧ s.busy = false ∧ ∃ v rest, s.sched = .hostWrite 4 v :: rest ∧ v % 2 = 1)

/-- R14, R250: no instruction stops the machine; only a host access to what does not exist does (log 15). -/
def Obligations.OnlyBadHostAccessesStop : Prop :=
  (∀ (i : Instr) (s : State), ∃ t, exec i s = .next t) ∧
  (∀ (s : State) (r : Refusal), step s ≠ .refused r) ∧
  (∀ (s : State) (f : Fault), step s = .fault f →
    (f = .noSuchRegister ∧ ∃ reg v rest, s.sched = .hostWrite reg v :: rest ∧ reg > 8) ∨
    (f = .bufferRange ∧ s.busy = false ∧ ∃ off bytes rest, s.sched = .hostPatchIbuf off bytes :: rest ∧
      off + bytes.length > s.ibuf.length))

/-- The invariant holds at reset, for every value of the parameters. -/
def Obligations.InvariantHoldsAtReset : Prop := ∀ p : Params, Inv p State.reset

/-- R37, R39, R40 to R45, R86, R174, R177, R240, R253: every step of every agent keeps the invariant. -/
def Obligations.EveryStepKeepsTheInvariant : Prop :=
  ∀ s t : State, Inv Config.params s → step s = .next t → Inv Config.params t

/-! ## Whole handshakes, against every device -/

/-- R180 (an inference of the spec): what a handshake appends to `HIST`: one `Flush`, then attempts, each a `Write` of
`TXF` followed by at most `NPOLL` `Read`s; every attempt but the last has exactly `NPOLL`; an ended one has at least
one read in its last attempt, and `NPOLL` when it timed out; it succeeds exactly when `ACC` holds `ACK`. -/
def Obligations.HandshakeHistoryShape : Prop :=
  ∀ (p : Params) (s : State) (es : List Env), p.Admissible → s.phase = .flush → es ≠ [] →
    let t := envRun p s es
    let npoll := p.npoll s.ackTimeoutMs.toNat
    ∃ (discarded : Bytes) (attempts : List (List Bytes)),
      t.hist = s.hist ++ Event.flush discarded :: attemptEvents s.txf attempts ∧
      t.att = attempts.length ∧
      (∀ reads ∈ attempts.dropLast, reads.length = npoll) ∧
      (∀ reads ∈ attempts, reads.length ≤ npoll) ∧
      (t.phase = .idle → ∃ reads, attempts.getLast? = some reads ∧ 1 ≤ reads.length ∧
        (t.err = some .handshakeTimeout → reads.length = npoll ∧ contains t.acc Config.ack = false) ∧
        (t.err ≠ some .handshakeTimeout → contains t.acc Config.ack = true))

/-- R48, R84, R290: what `RXQ` held before the flush reaches nothing but the flush event: two runs that differ in it
alone end alike but for the bytes that event records. -/
def Obligations.EarlierBytesAreInvisible : Prop :=
  ∀ (p : Params) (s : State) (other : Bytes) (es : List Env), s.phase = .flush → es ≠ [] →
    let t := envRun p s es
    let u := envRun p { s with rxq := other } es
    { t with hist := [] } = { u with hist := [] } ∧
    ∃ d e rest, t.hist = s.hist ++ Event.flush d :: rest ∧ u.hist = s.hist ++ Event.flush e :: rest

/-- R182: with no retry bound, `STOP` never asserted and a device that never completes an acknowledgement, the operation
never ends: `STATUS` stays `01`. Said twice: of runs after whose steps `ACC` never holds `ACK`; and of the device alone,
a silent one included: no `ACK` in the bytes the operation holds already followed by all bytes that arrive. What is held
before the flush is discarded and does not count. -/
def Obligations.SilentHandshakeNeverEnds : Prop :=
  ∀ (p : Params) (s : State) (es : List Env), Inv p s → p.maxRetries = none → s.busy = true →
    (∀ e ∈ es, e.2 = false) →
    let held : Bytes := if s.phase = .flush then [] else s.acc ++ s.rxq
    ((∀ k, 1 ≤ k → k ≤ es.length → contains (envRun p s (es.take k)).acc Config.ack = false) →
      (envRun p s es).status = 0x01#8) ∧
    (contains (held ++ (es.map (·.1)).flatten) Config.ack = false → (envRun p s es).status = 0x01#8)

/-- R182, R177: with a retry bound the operation ends, whatever the device and `STOP` do. -/
def Obligations.BoundedHandshakeEnds : Prop :=
  ∀ (p : Params) (s : State) (m : Nat) (env : Nat → Env), p.Admissible → p.maxRetries = some m → Inv p s → s.busy = true →
    ∃ n, (envRun p s ((List.range n).map env)).busy = false

/-- R178, R297, R182: a `STOP` that is held ends the operation at the next expiry at the latest: no further frame is
written once a window is open. -/
def Obligations.HeldStopEndsWithinTheWindow : Prop :=
  ∀ (p : Params) (s : State) (ds : Nat → Bytes), p.Admissible → s.phase = .poll →
    ∃ n, let t := envRun p s ((List.range n).map (fun k => (ds k, true)))
      t.busy = false ∧ t.att = s.att

/-- R176, R204, R205, R207: a `CALL` whose accumulated bytes are one or more acknowledgements and then the matching
response delivers exactly the result bytes; with nothing after the acknowledgements it is `NoTarget`. -/
def Obligations.AcknowledgedCallDeliversItsResponse : Prop :=
  ∀ (p : Params) (s : State) (n : Nat) (r : Bytes), s.phase = .poll → s.opl = 5#3 → 1 ≤ n →
    let t := blockStep p s
    let acks := (List.replicate n Config.ack).flatten
    (s.cmd ≠ 0xFF#8 → r.length ≤ 253 →
      contains (buildFrame (0xD5#8 :: (s.cmd + 1) :: r)) Config.ack = false →
      s.acc ++ s.rxq = acks ++ buildFrame (0xD5#8 :: (s.cmd + 1) :: r) →
      t.obuf = r ∧ t.rkind = .bytes ∧ t.err = none ∧ t.done = true ∧ t.busy = false ∧ t.phase = .idle) ∧
    (s.acc ++ s.rxq = acks →
      t.obuf = [] ∧ t.rkind = .noTarget ∧ t.err = none ∧ t.done = true ∧ t.busy = false ∧ t.phase = .idle)

/-! ## Host software over the block -/

/-- R201: parameters flatten to one byte per integer, masked; nested sequences in order; an unsupported element
fails with `InvalidParameterType`. That a negative integer is masked to its value mod 256 is DEDUCED (log 13). -/
def Obligations.ParametersFlattenInOrder : Prop :=
  (∀ vs : List Int, flattenParams (vs.map Param.int) = .ok (vs.map (BitVec.ofInt 8))) ∧
  (∀ (ps qs : List Param) (a b : Bytes), flattenParams ps = .ok a → flattenParams qs = .ok b →
    flattenParams (ps ++ qs) = .ok (a ++ b) ∧ flattenParams (.seq ps :: qs) = .ok (a ++ b)) ∧
  (∀ (ps qs : List Param) (a : Bytes), flattenParams ps = .ok a →
    flattenParams (ps ++ .other :: qs) = .error .invalidParameterType)

/-- R220 to R229, R231: the requests and outcomes of all six consumer functions, over responses long enough for the
offsets their rules read (what a shorter one gives is open: U13, N11, log 12); the sentinel `NoTarget`; every other
outcome in one of the three channels; and initialize, run from any state. The order of `discover_target`'s two parameter
bytes and the leading `01` of `write_block` are what R223 and R226 give as general knowledge (PRESUMED, log 21). That
`configure_reader` succeeds on `NoTarget` too, and that `write_block` is false on an empty result, is DEDUCED (log 22), and
so is the sequence of initialize (log 23); that its `configure_reader` is performed whatever its `get_firmware_version`
gave is the model's choice (log 24). A negative block index is masked to its value mod 256 (DEDUCED, log 13). What reset keeps is the model's choice (log 16). -/
def Obligations.ConsumerOutcomes : Prop :=
  CardOp.getFirmwareVersion.turn = some (.hostCall 0x02#8 []) ∧
  CardOp.configureReader.turn = some (.hostCall 0x14#8 Config.samParams) ∧
  (∀ profile : Byte, (CardOp.discoverTarget profile).turn = some (.hostCall 0x4A#8 [0x01#8, profile])) ∧
  (∀ (uid : Uid) (blk : Int) (kt : Byte) (key : Key), uid.bytes.length ≤ 7 ∧ key.toList.length = 6 ∧
    (CardOp.authenticateBlock uid blk kt key).turn =
      some (.hostCall 0x40#8 ([0x01#8, kt, BitVec.ofInt 8 blk] ++ key.toList ++ uid.bytes))) ∧
  (∀ blk : Int, (CardOp.readBlock blk).turn =
    some (.hostCall 0x40#8 [0x01#8, Config.readSubCommand, BitVec.ofInt 8 blk])) ∧
  (∀ (blk : Int) (d : Bytes),
    (d.length = 16 → (CardOp.writeBlock blk d).turn =
      some (.hostCall 0x40#8 ([0x01#8, Config.writeSubCommand, BitVec.ofInt 8 blk] ++ d))) ∧
    (d.length ≠ 16 → (CardOp.writeBlock blk d).turn = none ∧
      ∀ e, (CardOp.writeBlock blk d).outcome e = .failed .invalidBlockSize)) ∧
  (∀ (b : Byte) (res : Bytes),
    CardOp.getFirmwareVersion.outcome (.result (.bytes (b :: res))) = .version (b :: res)) ∧
  CardOp.getFirmwareVersion.outcome (.result .noTarget) = .failed .noDevice ∧
  CardOp.getFirmwareVersion.outcome (.result (.bytes [])) = .failed .noDevice ∧
  (∀ r : Result, CardOp.configureReader.outcome (.result r) = .configured) ∧
  (∀ profile : Byte,
    (∀ (b : Byte) (res : Bytes), b ≠ 0x01#8 →
      (CardOp.discoverTarget profile).outcome (.result (.bytes (b :: res))) = .failed .multipleCardsDetected) ∧
    (∀ (a1 a2 a3 a4 len : Byte) (rest : Bytes),
      (len.toNat > 7 →
        (CardOp.discoverTarget profile).outcome (.result (.bytes (0x01#8 :: a1 :: a2 :: a3 :: a4 :: len :: rest))) =
          .failed .uidTooLong) ∧
      (len.toNat ≤ 7 → len.toNat ≤ rest.length → ∃ u : Uid, u.bytes = rest.take len.toNat ∧
        (CardOp.discoverTarget profile).outcome (.result (.bytes (0x01#8 :: a1 :: a2 :: a3 :: a4 :: len :: rest))) =
          .uid u))) ∧
  (∀ (uid : Uid) (blk : Int) (kt : Byte) (key : Key) (res : Bytes),
    (CardOp.authenticateBlock uid blk kt key).outcome (.result (.bytes res)) =
      .flag (decide (res.head? = some 0x00#8))) ∧
  (∀ (blk : Int) (d res : Bytes), d.length = 16 →
    (CardOp.writeBlock blk d).outcome (.result (.bytes res)) = .flag (decide (res.head? = some 0x00#8))) ∧
  (∀ (blk : Int) (b : Byte) (res : Bytes),
    (b ≠ 0x00#8 → (CardOp.readBlock blk).outcome (.result (.bytes (b :: res))) = .noData) ∧
    (res.length ≥ 16 → (CardOp.readBlock blk).outcome (.result (.bytes (0x00#8 :: res))) = .data (res.take 16))) ∧
  (∀ c : CardOp, c ≠ .getFirmwareVersion → c ≠ .configureReader → c.turn ≠ none →
    c.outcome (.result .noTarget) = .noTarget) ∧
  (∀ (c : CardOp) (k : ErrorKind), c.turn ≠ none → c.outcome (.raised k) = .failed k) ∧
  (∀ (c : CardOp) (e : Ending), e ≠ .result .ackSentinel →
    ((c.outcome e).channel = none → ∃ res, e = .result (.bytes res) ∧
      ((∃ profile, c = .discoverTarget profile) ∨ ∃ blk, c = .readBlock blk))) ∧
  (∀ (s : State) (rxq : Bytes) (o : InitOptions) (rest : List Turn), s.sched = initializeTurns rxq o ++ rest →
    steps (initializeTurns rxq o).length s = .next { State.reset with
      op := 6#3, opl := 6#3, inited := true, rkind := .bytes, done := true, hist := [.write Config.params.wakeup],
      ackTimeoutMs := o.ackTimeoutMs.getD Config.params.ackTimeoutDefault,
      retryIntervalMs := o.retryIntervalMs.getD Config.params.retryIntervalDefault,
      rxq := rxq, stop := s.stop, sched := rest, freeCount := s.freeCount }) ∧
  (∀ (rxq : Bytes) (o : InitOptions), (Exposed.initializeDriver rxq o).turns = initializeTurns rxq o ∧
    (CardOp.getFirmwareVersion ∈ (Exposed.initializeDriver rxq o).ops ↔ o.checkVersion = true) ∧
    (CardOp.configureReader ∈ (Exposed.initializeDriver rxq o).ops ↔ o.configure = true))
end

