-- ==== Sys2Proof/Laws/CardOps.lean ====
section
/-! SUPPORT. Small lemmas of the consumer layer, so that no proof unfolds `CardOp.turn` or `CardOp.outcome`. -/

namespace Sys2Proof.Machine

/-- A function has a line exactly when its argument check passes (R220, R226). -/
theorem CardOp.turn_eq_none {c : CardOp} : c.turn = none ↔ ∃ k, c.request = .error k := by
  unfold CardOp.turn
  cases c.request <;> simp

theorem CardOp.outcome_of_error {c : CardOp} {k : ErrorKind} (h : c.request = .error k) (e : Ending) :
    c.outcome e = .failed k := by simp [CardOp.outcome, h]

theorem CardOp.outcome_raised {c : CardOp} {x : Byte × Bytes} (h : c.request = .ok x) (k : ErrorKind) :
    c.outcome (.raised k) = .failed k := by simp [CardOp.outcome, h]

theorem CardOp.outcome_result {c : CardOp} {x : Byte × Bytes} (h : c.request = .ok x) (r : Result) :
    c.outcome (.result r) = c.resultOutcome r := by simp [CardOp.outcome, h]

@[simp] theorem cardOutcome_bytes (f : Bytes → CardOutcome) (res : Bytes) : cardOutcome f (.bytes res) = f res := rfl
@[simp] theorem cardOutcome_noTarget (f : Bytes → CardOutcome) : cardOutcome f .noTarget = .noTarget := rfl
@[simp] theorem cardOutcome_ackSentinel (f : Bytes → CardOutcome) : cardOutcome f .ackSentinel = .unsettled := rfl

@[simp] theorem flagOutcome_nil : flagOutcome [] = .flag false := rfl
@[simp] theorem flagOutcome_cons (b : Byte) (rest : Bytes) : flagOutcome (b :: rest) = .flag (decide (b = 0x00#8)) := by
  simp [flagOutcome]

@[simp] theorem writeIfGiven_none (reg : Nat) : writeIfGiven reg none = [] := rfl
@[simp] theorem writeIfGiven_some (reg : Nat) (v : BitVec 16) : writeIfGiven reg (some v) = [.hostWrite reg v.toNat] := rfl

end Sys2Proof.Machine
end

