-- ==== Sys2Proof/Laws/Codec.lean ====
section
/-! SUPPORT. What the byte-sequence functions of Machine/Codec.lean do, one lemma or a few per function. -/

namespace Sys2Proof.Machine

/-! `add8`, `not8`, `neg8`, `trunc8` (R11) -/

@[simp] theorem add8_toNat (a b : Byte) : (add8 a b).toNat = (a.toNat + b.toNat) % 256 := by
  simp [add8, BitVec.toNat_add]

@[simp] theorem not8_toNat (a : Byte) : (not8 a).toNat = 255 - a.toNat := by
  simp [not8, BitVec.toNat_not]

@[simp] theorem neg8_toNat (a : Byte) : (neg8 a).toNat = (256 - a.toNat) % 256 := by
  simp [neg8, BitVec.toNat_neg]

@[simp] theorem trunc8_toNat (n : Nat) : (trunc8 n).toNat = n % 256 := by
  simp [trunc8]

theorem neg8_trunc8 {n : Nat} (h : n ≤ 256) : neg8 (trunc8 n) = BitVec.ofNat 8 (256 - n) := by
  apply BitVec.eq_of_toNat_eq
  simp
  omega

/-! `byteSum`, `accumulate`, `checksum` (R10, R140) -/

@[simp] theorem byteSum_nil : byteSum [] = 0 := rfl

@[simp] theorem byteSum_cons (b : Byte) (r : Bytes) : byteSum (b :: r) = b.toNat + byteSum r := rfl

@[simp] theorem byteSum_append (d e : Bytes) : byteSum (d ++ e) = byteSum d + byteSum e := by
  induction d with
  | nil => simp
  | cons b r ih => simp [ih]; omega

theorem accumulate_toNat (d : Bytes) (a : Byte) : (accumulate a d).toNat = (a.toNat + byteSum d) % 256 := by
  induction d generalizing a with
  | nil => simp only [accumulate, byteSum_nil]; omega
  | cons b r ih => simp only [accumulate, ih, byteSum_cons, add8_toNat]; omega

theorem accumulate_eq_foldl (d : Bytes) (a : Byte) : accumulate a d = d.foldl (fun x y => x + y) a := by
  induction d generalizing a with
  | nil => rfl
  | cons b r ih => exact ih (add8 a b)

/-! Frames (R100, R108) -/

theorem buildFrame_eq_wireFrame (p : Bytes) : buildFrame p = wireFrame 2 p [Config.postamble] := by
  simp [buildFrame, wireFrame, Config.startCode, Config.preamble, List.replicate]

theorem wireFrame_length (k : Nat) (p t : Bytes) : (wireFrame k p t).length = k + p.length + t.length + 4 := by
  simp [wireFrame]
  omega

theorem encodeFrame_of_size {p : Bytes} (h : 1 ≤ p.length ∧ p.length ≤ 254) : encodeFrame p = some (buildFrame p) :=
  if_neg (by simp only [Config.payloadMin, Config.payloadMax]; omega)

theorem encodeFrame_of_not_size {p : Bytes} (h : p.length = 0 ∨ p.length ≥ 255) : encodeFrame p = none :=
  if_pos (by simp only [Config.payloadMin, Config.payloadMax]; omega)

theorem encodeFrame_eq_some {p f : Bytes} :
    encodeFrame p = some f ↔ (1 ≤ p.length ∧ p.length ≤ 254) ∧ f = buildFrame p := by
  by_cases h : 1 ≤ p.length ∧ p.length ≤ 254
  · simp [encodeFrame_of_size h, h, eq_comm]
  · simp [encodeFrame_of_not_size (p := p) (by omega), h]

theorem encodeFrame_eq_none {p : Bytes} : encodeFrame p = none ↔ p.length = 0 ∨ p.length ≥ 255 := by
  by_cases h : 1 ≤ p.length ∧ p.length ≤ 254
  · simp only [encodeFrame_of_size h, reduceCtorEq, false_iff]; omega
  · simp only [encodeFrame_of_not_size (p := p) (by omega), true_iff]; omega

/-! The leading run of `00` (R153 steps 1 and 2) -/

theorem spanZeros_replicate (k : Nat) (b : Byte) (r : Bytes) (h : b ≠ 0x00#8) :
    spanZeros (List.replicate k 0x00#8 ++ b :: r) = (k, b :: r) := by
  induction k with
  | zero => simp [spanZeros, h]
  | succ k ih => simp [List.replicate_succ, spanZeros, ih]

theorem spanZeros_replicate_nil (k : Nat) : spanZeros (List.replicate k 0x00#8) = (k, []) := by
  induction k with
  | zero => rfl
  | succ k ih => simp [List.replicate_succ, spanZeros, ih]

theorem spanZeros_spec (raw : Bytes) :
    raw = List.replicate (spanZeros raw).1 0x00#8 ++ (spanZeros raw).2 ∧
      ∀ b r, (spanZeros raw).2 = b :: r → b ≠ 0x00#8 := by
  induction raw with
  | nil => simp [spanZeros]
  | cons a rest ih =>
    by_cases h : a = 0x00#8
    · obtain ⟨h1, h2⟩ := ih
      refine ⟨?_, ?_⟩
      · simp only [spanZeros, h, if_true, List.replicate_succ, List.cons_append]
        rw [← h1]
      · simpa only [spanZeros, h, if_true] using h2
    · simp only [spanZeros, h, if_false]
      refine ⟨by simp, ?_⟩
      intro b r hb
      simp at hb
      rw [← hb.1]; exact h

/-! The decoder past the run (R153) -/

theorem parse_ack : parse Config.ack = .ack := by simp [parse]

/-- The decoder on a sequence that is not `ACK` and whose run of `k + 1` bytes `00` ends in `FF`. -/
theorem parse_run (k : Nat) (r : Bytes) (h : List.replicate (k + 1) 0x00#8 ++ 0xFF#8 :: r ≠ Config.ack) :
    parse (List.replicate (k + 1) 0x00#8 ++ 0xFF#8 :: r) = parseBody (k + 1) r := by
  unfold parse
  rw [if_neg h, spanZeros_replicate _ _ _ (by decide)]
  simp

/-- Every way the decoder can end. -/
theorem parse_cases (raw : Bytes) :
    (raw = Config.ack ∧ parse raw = .ack) ∨
    (raw ≠ Config.ack ∧ parse raw = .bad .malformedPreamble) ∨
    (∃ k r, raw ≠ Config.ack ∧ raw = List.replicate (k + 1) 0x00#8 ++ 0xFF#8 :: r ∧ parse raw = parseBody (k + 1) r) := by
  by_cases ha : raw = Config.ack
  · exact .inl ⟨ha, ha ▸ parse_ack⟩
  refine .inr ?_
  obtain ⟨h1, h2⟩ := spanZeros_spec raw
  rcases hs : spanZeros raw with ⟨k, rest⟩
  rw [hs] at h1 h2
  cases k with
  | zero => exact .inl ⟨ha, by simp [parse, ha, hs]⟩
  | succ k =>
    cases rest with
    | nil => exact .inl ⟨ha, by simp [parse, ha, hs]⟩
    | cons b r =>
      by_cases hb : b = 0xFF#8
      · subst hb
        exact .inr ⟨k, r, ha, h1, by rw [parse, if_neg ha, hs]; simp⟩
      · exact .inl ⟨ha, by simp [parse, ha, hs, hb]⟩

/-- Every way the body of a frame can be read. -/
theorem parseBody_cases (k : Nat) (body : Bytes) :
    (body.length < 2 ∧ parseBody k body = .bad .lengthChecksumMismatch) ∨
    ∃ len lc rest, body = len :: lc :: rest ∧
      (((len.toNat + lc.toNat) % 256 ≠ 0 ∧ parseBody k body = .bad .lengthChecksumMismatch) ∨
       ((len.toNat + lc.toNat) % 256 = 0 ∧ rest.length < len.toNat + 1 ∧
         parseBody k body = .bad .payloadChecksumMismatch) ∨
       ((len.toNat + lc.toNat) % 256 = 0 ∧ len.toNat + 1 ≤ rest.length ∧
         checksum (rest.take (len.toNat + 1)) ≠ 0x00#8 ∧ parseBody k body = .bad .payloadChecksumMismatch) ∨
       ((len.toNat + lc.toNat) % 256 = 0 ∧ len.toNat + 1 ≤ rest.length ∧
         checksum (rest.take (len.toNat + 1)) = 0x00#8 ∧
         parseBody k body = .frame k (rest.take len.toNat) (rest.drop (len.toNat + 1)))) := by
  match body with
  | [] => exact .inl ⟨by simp, rfl⟩
  | [_] => exact .inl ⟨by simp, rfl⟩
  | len :: lc :: rest =>
    refine .inr ⟨len, lc, rest, rfl, ?_⟩
    by_cases h1 : (len.toNat + lc.toNat) % 256 = 0
    · by_cases h2 : rest.length < len.toNat + 1
      · exact .inr (.inl ⟨h1, h2, by simp [parseBody, h1, h2]⟩)
      · have h2' : len.toNat + 1 ≤ rest.length := by omega
        by_cases h3 : checksum (rest.take (len.toNat + 1)) = 0x00#8
        · exact .inr (.inr (.inr ⟨h1, h2', h3, by simp [parseBody, h1, h2, h3]⟩))
        · exact .inr (.inr (.inl ⟨h1, h2', h3, by simp [parseBody, h1, h2, h3]⟩))
    · exact .inl ⟨h1, by simp [parseBody, h1]⟩

/-! The detector and `strip` (R175, R176) -/

@[simp] theorem contains_nil_ack : contains [] Config.ack = false := by decide

theorem contains_cons (b : Byte) (r t : Bytes) :
    contains (b :: r) t = true ↔ t <+: b :: r ∨ contains r t = true := by
  simp [contains]

@[simp] theorem strip_nil : strip [] = [] := rfl

theorem stripFrom_skip (n : Nat) (b : Bytes) (h : n ≤ b.length) : stripFrom n b = strip (b.drop n) := by
  induction n generalizing b with
  | zero => rfl
  | succ n ih =>
    cases b with
    | nil => simp at h
    | cons x r => simpa [stripFrom] using ih r (by simpa using h)

theorem strip_cons_of_ack {b : Byte} {r : Bytes} (h : Config.ack <+: b :: r) : strip (b :: r) = strip (r.drop 5) := by
  have hl : 5 ≤ r.length := by
    have := h.length_le
    simp [Config.ack] at this
    omega
  rw [strip, stripFrom, if_pos (by simpa using h), stripFrom_skip 5 r hl]

theorem strip_cons_of_not {b : Byte} {r : Bytes} (h : ¬ Config.ack <+: b :: r) : strip (b :: r) = b :: strip r := by
  rw [strip, stripFrom, if_neg (by simpa using h)]
  rfl

end Sys2Proof.Machine
end

