-- ==== Sys2Proof/Laws/State.lean ====
section
/-! SUPPORT. One lemma per field per shared operation, so that no proof unfolds a record update. -/

namespace Sys2Proof.Machine

variable (s : State)

/-! `tFlush` (R75) -/
@[simp] theorem tFlush_op : (tFlush s).op = s.op := rfl
@[simp] theorem tFlush_cmd : (tFlush s).cmd = s.cmd := rfl
@[simp] theorem tFlush_ackTimeoutMs : (tFlush s).ackTimeoutMs = s.ackTimeoutMs := rfl
@[simp] theorem tFlush_retryIntervalMs : (tFlush s).retryIntervalMs = s.retryIntervalMs := rfl
@[simp] theorem tFlush_stop : (tFlush s).stop = s.stop := rfl
@[simp] theorem tFlush_phase : (tFlush s).phase = s.phase := rfl
@[simp] theorem tFlush_timer : (tFlush s).timer = s.timer := rfl
@[simp] theorem tFlush_att : (tFlush s).att = s.att := rfl
@[simp] theorem tFlush_opl : (tFlush s).opl = s.opl := rfl
@[simp] theorem tFlush_busy : (tFlush s).busy = s.busy := rfl
@[simp] theorem tFlush_done : (tFlush s).done = s.done := rfl
@[simp] theorem tFlush_err : (tFlush s).err = s.err := rfl
@[simp] theorem tFlush_rkind : (tFlush s).rkind = s.rkind := rfl
@[simp] theorem tFlush_inited : (tFlush s).inited = s.inited := rfl
@[simp] theorem tFlush_ibuf : (tFlush s).ibuf = s.ibuf := rfl
@[simp] theorem tFlush_obuf : (tFlush s).obuf = s.obuf := rfl
@[simp] theorem tFlush_txf : (tFlush s).txf = s.txf := rfl
@[simp] theorem tFlush_acc : (tFlush s).acc = s.acc := rfl
@[simp] theorem tFlush_rxq : (tFlush s).rxq = [] := rfl
@[simp] theorem tFlush_hist : (tFlush s).hist = s.hist ++ [.flush s.rxq] := rfl
@[simp] theorem tFlush_waitedMs : (tFlush s).waitedMs = s.waitedMs := rfl
@[simp] theorem tFlush_sched : (tFlush s).sched = s.sched := rfl
@[simp] theorem tFlush_freeCount : (tFlush s).freeCount = s.freeCount := rfl

/-! `tWrite` (R76) -/
@[simp] theorem tWrite_op (b : Bytes) : (tWrite b s).op = s.op := rfl
@[simp] theorem tWrite_cmd (b : Bytes) : (tWrite b s).cmd = s.cmd := rfl
@[simp] theorem tWrite_ackTimeoutMs (b : Bytes) : (tWrite b s).ackTimeoutMs = s.ackTimeoutMs := rfl
@[simp] theorem tWrite_retryIntervalMs (b : Bytes) : (tWrite b s).retryIntervalMs = s.retryIntervalMs := rfl
@[simp] theorem tWrite_stop (b : Bytes) : (tWrite b s).stop = s.stop := rfl
@[simp] theorem tWrite_phase (b : Bytes) : (tWrite b s).phase = s.phase := rfl
@[simp] theorem tWrite_timer (b : Bytes) : (tWrite b s).timer = s.timer := rfl
@[simp] theorem tWrite_att (b : Bytes) : (tWrite b s).att = s.att := rfl
@[simp] theorem tWrite_opl (b : Bytes) : (tWrite b s).opl = s.opl := rfl
@[simp] theorem tWrite_busy (b : Bytes) : (tWrite b s).busy = s.busy := rfl
@[simp] theorem tWrite_done (b : Bytes) : (tWrite b s).done = s.done := rfl
@[simp] theorem tWrite_err (b : Bytes) : (tWrite b s).err = s.err := rfl
@[simp] theorem tWrite_rkind (b : Bytes) : (tWrite b s).rkind = s.rkind := rfl
@[simp] theorem tWrite_inited (b : Bytes) : (tWrite b s).inited = s.inited := rfl
@[simp] theorem tWrite_ibuf (b : Bytes) : (tWrite b s).ibuf = s.ibuf := rfl
@[simp] theorem tWrite_obuf (b : Bytes) : (tWrite b s).obuf = s.obuf := rfl
@[simp] theorem tWrite_txf (b : Bytes) : (tWrite b s).txf = s.txf := rfl
@[simp] theorem tWrite_acc (b : Bytes) : (tWrite b s).acc = s.acc := rfl
@[simp] theorem tWrite_rxq (b : Bytes) : (tWrite b s).rxq = s.rxq := rfl
@[simp] theorem tWrite_hist (b : Bytes) : (tWrite b s).hist = s.hist ++ [.write b] := rfl
@[simp] theorem tWrite_waitedMs (b : Bytes) : (tWrite b s).waitedMs = s.waitedMs := rfl
@[simp] theorem tWrite_sched (b : Bytes) : (tWrite b s).sched = s.sched := rfl
@[simp] theorem tWrite_freeCount (b : Bytes) : (tWrite b s).freeCount = s.freeCount := rfl

/-! `tReadIntoAcc` (R77) -/
@[simp] theorem tReadIntoAcc_op : (tReadIntoAcc s).op = s.op := rfl
@[simp] theorem tReadIntoAcc_cmd : (tReadIntoAcc s).cmd = s.cmd := rfl
@[simp] theorem tReadIntoAcc_ackTimeoutMs : (tReadIntoAcc s).ackTimeoutMs = s.ackTimeoutMs := rfl
@[simp] theorem tReadIntoAcc_retryIntervalMs : (tReadIntoAcc s).retryIntervalMs = s.retryIntervalMs := rfl
@[simp] theorem tReadIntoAcc_stop : (tReadIntoAcc s).stop = s.stop := rfl
@[simp] theorem tReadIntoAcc_phase : (tReadIntoAcc s).phase = s.phase := rfl
@[simp] theorem tReadIntoAcc_timer : (tReadIntoAcc s).timer = s.timer := rfl
@[simp] theorem tReadIntoAcc_att : (tReadIntoAcc s).att = s.att := rfl
@[simp] theorem tReadIntoAcc_opl : (tReadIntoAcc s).opl = s.opl := rfl
@[simp] theorem tReadIntoAcc_busy : (tReadIntoAcc s).busy = s.busy := rfl
@[simp] theorem tReadIntoAcc_done : (tReadIntoAcc s).done = s.done := rfl
@[simp] theorem tReadIntoAcc_err : (tReadIntoAcc s).err = s.err := rfl
@[simp] theorem tReadIntoAcc_rkind : (tReadIntoAcc s).rkind = s.rkind := rfl
@[simp] theorem tReadIntoAcc_inited : (tReadIntoAcc s).inited = s.inited := rfl
@[simp] theorem tReadIntoAcc_ibuf : (tReadIntoAcc s).ibuf = s.ibuf := rfl
@[simp] theorem tReadIntoAcc_obuf : (tReadIntoAcc s).obuf = s.obuf := rfl
@[simp] theorem tReadIntoAcc_txf : (tReadIntoAcc s).txf = s.txf := rfl
@[simp] theorem tReadIntoAcc_acc : (tReadIntoAcc s).acc = s.acc ++ s.rxq := rfl
@[simp] theorem tReadIntoAcc_rxq : (tReadIntoAcc s).rxq = [] := rfl
@[simp] theorem tReadIntoAcc_hist : (tReadIntoAcc s).hist = s.hist ++ [.read s.rxq] := rfl
@[simp] theorem tReadIntoAcc_waitedMs : (tReadIntoAcc s).waitedMs = s.waitedMs := rfl
@[simp] theorem tReadIntoAcc_sched : (tReadIntoAcc s).sched = s.sched := rfl
@[simp] theorem tReadIntoAcc_freeCount : (tReadIntoAcc s).freeCount = s.freeCount := rfl

/-! `wait` (R262) -/
@[simp] theorem wait_op (n : Nat) : (wait n s).op = s.op := rfl
@[simp] theorem wait_cmd (n : Nat) : (wait n s).cmd = s.cmd := rfl
@[simp] theorem wait_ackTimeoutMs (n : Nat) : (wait n s).ackTimeoutMs = s.ackTimeoutMs := rfl
@[simp] theorem wait_retryIntervalMs (n : Nat) : (wait n s).retryIntervalMs = s.retryIntervalMs := rfl
@[simp] theorem wait_stop (n : Nat) : (wait n s).stop = s.stop := rfl
@[simp] theorem wait_phase (n : Nat) : (wait n s).phase = s.phase := rfl
@[simp] theorem wait_timer (n : Nat) : (wait n s).timer = s.timer := rfl
@[simp] theorem wait_att (n : Nat) : (wait n s).att = s.att := rfl
@[simp] theorem wait_opl (n : Nat) : (wait n s).opl = s.opl := rfl
@[simp] theorem wait_busy (n : Nat) : (wait n s).busy = s.busy := rfl
@[simp] theorem wait_done (n : Nat) : (wait n s).done = s.done := rfl
@[simp] theorem wait_err (n : Nat) : (wait n s).err = s.err := rfl
@[simp] theorem wait_rkind (n : Nat) : (wait n s).rkind = s.rkind := rfl
@[simp] theorem wait_inited (n : Nat) : (wait n s).inited = s.inited := rfl
@[simp] theorem wait_ibuf (n : Nat) : (wait n s).ibuf = s.ibuf := rfl
@[simp] theorem wait_obuf (n : Nat) : (wait n s).obuf = s.obuf := rfl
@[simp] theorem wait_txf (n : Nat) : (wait n s).txf = s.txf := rfl
@[simp] theorem wait_acc (n : Nat) : (wait n s).acc = s.acc := rfl
@[simp] theorem wait_rxq (n : Nat) : (wait n s).rxq = s.rxq := rfl
@[simp] theorem wait_hist (n : Nat) : (wait n s).hist = s.hist := rfl
@[simp] theorem wait_waitedMs (n : Nat) : (wait n s).waitedMs = s.waitedMs + n := rfl
@[simp] theorem wait_sched (n : Nat) : (wait n s).sched = s.sched := rfl
@[simp] theorem wait_freeCount (n : Nat) : (wait n s).freeCount = s.freeCount := rfl

/-! `deviceArrives` (R78) -/
@[simp] theorem deviceArrives_op (b : Bytes) : (deviceArrives b s).op = s.op := rfl
@[simp] theorem deviceArrives_cmd (b : Bytes) : (deviceArrives b s).cmd = s.cmd := rfl
@[simp] theorem deviceArrives_ackTimeoutMs (b : Bytes) : (deviceArrives b s).ackTimeoutMs = s.ackTimeoutMs := rfl
@[simp] theorem deviceArrives_retryIntervalMs (b : Bytes) : (deviceArrives b s).retryIntervalMs = s.retryIntervalMs := rfl
@[simp] theorem deviceArrives_stop (b : Bytes) : (deviceArrives b s).stop = s.stop := rfl
@[simp] theorem deviceArrives_phase (b : Bytes) : (deviceArrives b s).phase = s.phase := rfl
@[simp] theorem deviceArrives_timer (b : Bytes) : (deviceArrives b s).timer = s.timer := rfl
@[simp] theorem deviceArrives_att (b : Bytes) : (deviceArrives b s).att = s.att := rfl
@[simp] theorem deviceArrives_opl (b : Bytes) : (deviceArrives b s).opl = s.opl := rfl
@[simp] theorem deviceArrives_busy (b : Bytes) : (deviceArrives b s).busy = s.busy := rfl
@[simp] theorem deviceArrives_done (b : Bytes) : (deviceArrives b s).done = s.done := rfl
@[simp] theorem deviceArrives_err (b : Bytes) : (deviceArrives b s).err = s.err := rfl
@[simp] theorem deviceArrives_rkind (b : Bytes) : (deviceArrives b s).rkind = s.rkind := rfl
@[simp] theorem deviceArrives_inited (b : Bytes) : (deviceArrives b s).inited = s.inited := rfl
@[simp] theorem deviceArrives_ibuf (b : Bytes) : (deviceArrives b s).ibuf = s.ibuf := rfl
@[simp] theorem deviceArrives_obuf (b : Bytes) : (deviceArrives b s).obuf = s.obuf := rfl
@[simp] theorem deviceArrives_txf (b : Bytes) : (deviceArrives b s).txf = s.txf := rfl
@[simp] theorem deviceArrives_acc (b : Bytes) : (deviceArrives b s).acc = s.acc := rfl
@[simp] theorem deviceArrives_rxq (b : Bytes) : (deviceArrives b s).rxq = s.rxq ++ b := rfl
@[simp] theorem deviceArrives_hist (b : Bytes) : (deviceArrives b s).hist = s.hist := rfl
@[simp] theorem deviceArrives_waitedMs (b : Bytes) : (deviceArrives b s).waitedMs = s.waitedMs := rfl
@[simp] theorem deviceArrives_sched (b : Bytes) : (deviceArrives b s).sched = s.sched := rfl
@[simp] theorem deviceArrives_freeCount (b : Bytes) : (deviceArrives b s).freeCount = s.freeCount := rfl

/-! `accept` (R36, R41 to R45) -/
@[simp] theorem accept_op (o : BitVec 3) : (accept o s).op = s.op := rfl
@[simp] theorem accept_cmd (o : BitVec 3) : (accept o s).cmd = s.cmd := rfl
@[simp] theorem accept_ackTimeoutMs (o : BitVec 3) : (accept o s).ackTimeoutMs = s.ackTimeoutMs := rfl
@[simp] theorem accept_retryIntervalMs (o : BitVec 3) : (accept o s).retryIntervalMs = s.retryIntervalMs := rfl
@[simp] theorem accept_stop (o : BitVec 3) : (accept o s).stop = s.stop := rfl
@[simp] theorem accept_phase (o : BitVec 3) : (accept o s).phase = s.phase := rfl
@[simp] theorem accept_timer (o : BitVec 3) : (accept o s).timer = s.timer := rfl
@[simp] theorem accept_att (o : BitVec 3) : (accept o s).att = s.att := rfl
@[simp] theorem accept_opl (o : BitVec 3) : (accept o s).opl = o := rfl
@[simp] theorem accept_busy (o : BitVec 3) : (accept o s).busy = true := rfl
@[simp] theorem accept_done (o : BitVec 3) : (accept o s).done = false := rfl
@[simp] theorem accept_err (o : BitVec 3) : (accept o s).err = none := rfl
@[simp] theorem accept_rkind (o : BitVec 3) : (accept o s).rkind = .none := rfl
@[simp] theorem accept_inited (o : BitVec 3) : (accept o s).inited = s.inited := rfl
@[simp] theorem accept_ibuf (o : BitVec 3) : (accept o s).ibuf = s.ibuf := rfl
@[simp] theorem accept_obuf (o : BitVec 3) : (accept o s).obuf = [] := rfl
@[simp] theorem accept_txf (o : BitVec 3) : (accept o s).txf = s.txf := rfl
@[simp] theorem accept_acc (o : BitVec 3) : (accept o s).acc = s.acc := rfl
@[simp] theorem accept_rxq (o : BitVec 3) : (accept o s).rxq = s.rxq := rfl
@[simp] theorem accept_hist (o : BitVec 3) : (accept o s).hist = s.hist := rfl
@[simp] theorem accept_waitedMs (o : BitVec 3) : (accept o s).waitedMs = s.waitedMs := rfl
@[simp] theorem accept_sched (o : BitVec 3) : (accept o s).sched = s.sched := rfl
@[simp] theorem accept_freeCount (o : BitVec 3) : (accept o s).freeCount = s.freeCount := rfl

/-! `finish` (R171) -/
@[simp] theorem finish_op (r : Result) : (finish r s).op = s.op := rfl
@[simp] theorem finish_cmd (r : Result) : (finish r s).cmd = s.cmd := rfl
@[simp] theorem finish_ackTimeoutMs (r : Result) : (finish r s).ackTimeoutMs = s.ackTimeoutMs := rfl
@[simp] theorem finish_retryIntervalMs (r : Result) : (finish r s).retryIntervalMs = s.retryIntervalMs := rfl
@[simp] theorem finish_stop (r : Result) : (finish r s).stop = s.stop := rfl
@[simp] theorem finish_phase (r : Result) : (finish r s).phase = .idle := rfl
@[simp] theorem finish_timer (r : Result) : (finish r s).timer = s.timer := rfl
@[simp] theorem finish_att (r : Result) : (finish r s).att = s.att := rfl
@[simp] theorem finish_opl (r : Result) : (finish r s).opl = s.opl := rfl
@[simp] theorem finish_busy (r : Result) : (finish r s).busy = false := rfl
@[simp] theorem finish_done (r : Result) : (finish r s).done = true := rfl
@[simp] theorem finish_err (r : Result) : (finish r s).err = none := rfl
@[simp] theorem finish_rkind (r : Result) : (finish r s).rkind = resultKind r := rfl
@[simp] theorem finish_inited (r : Result) : (finish r s).inited = s.inited := rfl
@[simp] theorem finish_ibuf (r : Result) : (finish r s).ibuf = s.ibuf := rfl
@[simp] theorem finish_obuf (r : Result) : (finish r s).obuf = resultBytes r := rfl
@[simp] theorem finish_txf (r : Result) : (finish r s).txf = s.txf := rfl
@[simp] theorem finish_acc (r : Result) : (finish r s).acc = s.acc := rfl
@[simp] theorem finish_rxq (r : Result) : (finish r s).rxq = s.rxq := rfl
@[simp] theorem finish_hist (r : Result) : (finish r s).hist = s.hist := rfl
@[simp] theorem finish_waitedMs (r : Result) : (finish r s).waitedMs = s.waitedMs := rfl
@[simp] theorem finish_sched (r : Result) : (finish r s).sched = s.sched := rfl
@[simp] theorem finish_freeCount (r : Result) : (finish r s).freeCount = s.freeCount := rfl

/-! `raise` (R252) -/
@[simp] theorem raise_op (k : ErrorKind) : (raise k s).op = s.op := rfl
@[simp] theorem raise_cmd (k : ErrorKind) : (raise k s).cmd = s.cmd := rfl
@[simp] theorem raise_ackTimeoutMs (k : ErrorKind) : (raise k s).ackTimeoutMs = s.ackTimeoutMs := rfl
@[simp] theorem raise_retryIntervalMs (k : ErrorKind) : (raise k s).retryIntervalMs = s.retryIntervalMs := rfl
@[simp] theorem raise_stop (k : ErrorKind) : (raise k s).stop = s.stop := rfl
@[simp] theorem raise_phase (k : ErrorKind) : (raise k s).phase = .idle := rfl
@[simp] theorem raise_timer (k : ErrorKind) : (raise k s).timer = s.timer := rfl
@[simp] theorem raise_att (k : ErrorKind) : (raise k s).att = s.att := rfl
@[simp] theorem raise_opl (k : ErrorKind) : (raise k s).opl = s.opl := rfl
@[simp] theorem raise_busy (k : ErrorKind) : (raise k s).busy = false := rfl
@[simp] theorem raise_done (k : ErrorKind) : (raise k s).done = true := rfl
@[simp] theorem raise_err (k : ErrorKind) : (raise k s).err = some k := rfl
@[simp] theorem raise_rkind (k : ErrorKind) : (raise k s).rkind = .none := rfl
@[simp] theorem raise_inited (k : ErrorKind) : (raise k s).inited = s.inited := rfl
@[simp] theorem raise_ibuf (k : ErrorKind) : (raise k s).ibuf = s.ibuf := rfl
@[simp] theorem raise_obuf (k : ErrorKind) : (raise k s).obuf = [] := rfl
@[simp] theorem raise_txf (k : ErrorKind) : (raise k s).txf = s.txf := rfl
@[simp] theorem raise_acc (k : ErrorKind) : (raise k s).acc = s.acc := rfl
@[simp] theorem raise_rxq (k : ErrorKind) : (raise k s).rxq = s.rxq := rfl
@[simp] theorem raise_hist (k : ErrorKind) : (raise k s).hist = s.hist := rfl
@[simp] theorem raise_waitedMs (k : ErrorKind) : (raise k s).waitedMs = s.waitedMs := rfl
@[simp] theorem raise_sched (k : ErrorKind) : (raise k s).sched = s.sched := rfl
@[simp] theorem raise_freeCount (k : ErrorKind) : (raise k s).freeCount = s.freeCount := rfl

/-! `flushStep` (R172) -/
@[simp] theorem flushStep_op : (flushStep s).op = s.op := rfl
@[simp] theorem flushStep_cmd : (flushStep s).cmd = s.cmd := rfl
@[simp] theorem flushStep_ackTimeoutMs : (flushStep s).ackTimeoutMs = s.ackTimeoutMs := rfl
@[simp] theorem flushStep_retryIntervalMs : (flushStep s).retryIntervalMs = s.retryIntervalMs := rfl
@[simp] theorem flushStep_stop : (flushStep s).stop = s.stop := rfl
@[simp] theorem flushStep_phase : (flushStep s).phase = .write := rfl
@[simp] theorem flushStep_timer : (flushStep s).timer = s.timer := rfl
@[simp] theorem flushStep_att : (flushStep s).att = 0 := rfl
@[simp] theorem flushStep_opl : (flushStep s).opl = s.opl := rfl
@[simp] theorem flushStep_busy : (flushStep s).busy = s.busy := rfl
@[simp] theorem flushStep_done : (flushStep s).done = s.done := rfl
@[simp] theorem flushStep_err : (flushStep s).err = s.err := rfl
@[simp] theorem flushStep_rkind : (flushStep s).rkind = s.rkind := rfl
@[simp] theorem flushStep_inited : (flushStep s).inited = s.inited := rfl
@[simp] theorem flushStep_ibuf : (flushStep s).ibuf = s.ibuf := rfl
@[simp] theorem flushStep_obuf : (flushStep s).obuf = s.obuf := rfl
@[simp] theorem flushStep_txf : (flushStep s).txf = s.txf := rfl
@[simp] theorem flushStep_acc : (flushStep s).acc = [] := rfl
@[simp] theorem flushStep_rxq : (flushStep s).rxq = [] := rfl
@[simp] theorem flushStep_hist : (flushStep s).hist = s.hist ++ [.flush s.rxq] := rfl
@[simp] theorem flushStep_waitedMs : (flushStep s).waitedMs = s.waitedMs := rfl
@[simp] theorem flushStep_sched : (flushStep s).sched = s.sched := rfl
@[simp] theorem flushStep_freeCount : (flushStep s).freeCount = s.freeCount := rfl

/-! `writeStep` (R173) -/
@[simp] theorem writeStep_op (p : Params) : (writeStep p s).op = s.op := rfl
@[simp] theorem writeStep_cmd (p : Params) : (writeStep p s).cmd = s.cmd := rfl
@[simp] theorem writeStep_ackTimeoutMs (p : Params) : (writeStep p s).ackTimeoutMs = s.ackTimeoutMs := rfl
@[simp] theorem writeStep_retryIntervalMs (p : Params) : (writeStep p s).retryIntervalMs = s.retryIntervalMs := rfl
@[simp] theorem writeStep_stop (p : Params) : (writeStep p s).stop = s.stop := rfl
@[simp] theorem writeStep_phase (p : Params) : (writeStep p s).phase = .poll := rfl
@[simp] theorem writeStep_timer (p : Params) : (writeStep p s).timer = 0 := rfl
@[simp] theorem writeStep_att (p : Params) : (writeStep p s).att = s.att + 1 := rfl
@[simp] theorem writeStep_opl (p : Params) : (writeStep p s).opl = s.opl := rfl
@[simp] theorem writeStep_busy (p : Params) : (writeStep p s).busy = s.busy := rfl
@[simp] theorem writeStep_done (p : Params) : (writeStep p s).done = s.done := rfl
@[simp] theorem writeStep_err (p : Params) : (writeStep p s).err = s.err := rfl
@[simp] theorem writeStep_rkind (p : Params) : (writeStep p s).rkind = s.rkind := rfl
@[simp] theorem writeStep_inited (p : Params) : (writeStep p s).inited = s.inited := rfl
@[simp] theorem writeStep_ibuf (p : Params) : (writeStep p s).ibuf = s.ibuf := rfl
@[simp] theorem writeStep_obuf (p : Params) : (writeStep p s).obuf = s.obuf := rfl
@[simp] theorem writeStep_txf (p : Params) : (writeStep p s).txf = s.txf := rfl
@[simp] theorem writeStep_acc (p : Params) : (writeStep p s).acc = if p.accClearOnRetry then [] else s.acc := rfl
@[simp] theorem writeStep_rxq (p : Params) : (writeStep p s).rxq = s.rxq := rfl
@[simp] theorem writeStep_hist (p : Params) : (writeStep p s).hist = s.hist ++ [.write s.txf] := rfl
@[simp] theorem writeStep_waitedMs (p : Params) : (writeStep p s).waitedMs = s.waitedMs := rfl
@[simp] theorem writeStep_sched (p : Params) : (writeStep p s).sched = s.sched := rfl
@[simp] theorem writeStep_freeCount (p : Params) : (writeStep p s).freeCount = s.freeCount := rfl

/-! `pollRead` (R174) -/
@[simp] theorem pollRead_op (p : Params) : (pollRead p s).op = s.op := rfl
@[simp] theorem pollRead_cmd (p : Params) : (pollRead p s).cmd = s.cmd := rfl
@[simp] theorem pollRead_ackTimeoutMs (p : Params) : (pollRead p s).ackTimeoutMs = s.ackTimeoutMs := rfl
@[simp] theorem pollRead_retryIntervalMs (p : Params) : (pollRead p s).retryIntervalMs = s.retryIntervalMs := rfl
@[simp] theorem pollRead_stop (p : Params) : (pollRead p s).stop = s.stop := rfl
@[simp] theorem pollRead_phase (p : Params) : (pollRead p s).phase = s.phase := rfl
@[simp] theorem pollRead_timer (p : Params) : (pollRead p s).timer = s.timer + p.pollIntervalMs := rfl
@[simp] theorem pollRead_att (p : Params) : (pollRead p s).att = s.att := rfl
@[simp] theorem pollRead_opl (p : Params) : (pollRead p s).opl = s.opl := rfl
@[simp] theorem pollRead_busy (p : Params) : (pollRead p s).busy = s.busy := rfl
@[simp] theorem pollRead_done (p : Params) : (pollRead p s).done = s.done := rfl
@[simp] theorem pollRead_err (p : Params) : (pollRead p s).err = s.err := rfl
@[simp] theorem pollRead_rkind (p : Params) : (pollRead p s).rkind = s.rkind := rfl
@[simp] theorem pollRead_inited (p : Params) : (pollRead p s).inited = s.inited := rfl
@[simp] theorem pollRead_ibuf (p : Params) : (pollRead p s).ibuf = s.ibuf := rfl
@[simp] theorem pollRead_obuf (p : Params) : (pollRead p s).obuf = s.obuf := rfl
@[simp] theorem pollRead_txf (p : Params) : (pollRead p s).txf = s.txf := rfl
@[simp] theorem pollRead_acc (p : Params) : (pollRead p s).acc = s.acc ++ s.rxq := rfl
@[simp] theorem pollRead_rxq (p : Params) : (pollRead p s).rxq = [] := rfl
@[simp] theorem pollRead_hist (p : Params) : (pollRead p s).hist = s.hist ++ [.read s.rxq] := rfl
@[simp] theorem pollRead_waitedMs (p : Params) : (pollRead p s).waitedMs = s.waitedMs + p.pollIntervalMs := rfl
@[simp] theorem pollRead_sched (p : Params) : (pollRead p s).sched = s.sched := rfl
@[simp] theorem pollRead_freeCount (p : Params) : (pollRead p s).freeCount = s.freeCount := rfl

/-! `backoffStep` (R179) -/
@[simp] theorem backoffStep_op : (backoffStep s).op = s.op := rfl
@[simp] theorem backoffStep_cmd : (backoffStep s).cmd = s.cmd := rfl
@[simp] theorem backoffStep_ackTimeoutMs : (backoffStep s).ackTimeoutMs = s.ackTimeoutMs := rfl
@[simp] theorem backoffStep_retryIntervalMs : (backoffStep s).retryIntervalMs = s.retryIntervalMs := rfl
@[simp] theorem backoffStep_stop : (backoffStep s).stop = s.stop := rfl
@[simp] theorem backoffStep_phase : (backoffStep s).phase = .write := rfl
@[simp] theorem backoffStep_timer : (backoffStep s).timer = s.timer := rfl
@[simp] theorem backoffStep_att : (backoffStep s).att = s.att := rfl
@[simp] theorem backoffStep_opl : (backoffStep s).opl = s.opl := rfl
@[simp] theorem backoffStep_busy : (backoffStep s).busy = s.busy := rfl
@[simp] theorem backoffStep_done : (backoffStep s).done = s.done := rfl
@[simp] theorem backoffStep_err : (backoffStep s).err = s.err := rfl
@[simp] theorem backoffStep_rkind : (backoffStep s).rkind = s.rkind := rfl
@[simp] theorem backoffStep_inited : (backoffStep s).inited = s.inited := rfl
@[simp] theorem backoffStep_ibuf : (backoffStep s).ibuf = s.ibuf := rfl
@[simp] theorem backoffStep_obuf : (backoffStep s).obuf = s.obuf := rfl
@[simp] theorem backoffStep_txf : (backoffStep s).txf = s.txf := rfl
@[simp] theorem backoffStep_acc : (backoffStep s).acc = s.acc := rfl
@[simp] theorem backoffStep_rxq : (backoffStep s).rxq = s.rxq := rfl
@[simp] theorem backoffStep_hist : (backoffStep s).hist = s.hist := rfl
@[simp] theorem backoffStep_waitedMs : (backoffStep s).waitedMs = s.waitedMs + s.retryIntervalMs.toNat := rfl
@[simp] theorem backoffStep_sched : (backoffStep s).sched = s.sched := rfl
@[simp] theorem backoffStep_freeCount : (backoffStep s).freeCount = s.freeCount := rfl

end Sys2Proof.Machine
end

