-- ==== Sys2Proof/Laws/Ops.lean ====
section
/-! SUPPORT. What each shared operation and each step can do, said once. -/

namespace Sys2Proof.Machine

/-! Starting and ending an operation -/

@[simp] theorem startIf_busy {o : BitVec 3} {body : State → State} {s : State} (h : s.busy = true) :
    startIf o body s = .next s := by simp [startIf, h]

@[simp] theorem startIf_idle {o : BitVec 3} {body : State → State} {s : State} (h : s.busy = false) :
    startIf o body s = .next (body (accept o s)) := by simp [startIf, h]

/-- An operation that ends, however it ends, writes the result fields and flags, and goes idle. -/
theorem endWith_frame (e : Ending) (s : State) :
    ∃ o r k, endWith e s = { s with obuf := o, rkind := r, err := k, done := true, busy := false, phase := .idle } := by
  cases e <;> exact ⟨_, _, _, rfl⟩

/-- What the flags show after an ending: one channel, and bytes with a `BYTES` result only. -/
theorem endWith_flags (e : Ending) (s : State) :
    let t := endWith e s
    (t.err ≠ none ∨ t.rkind ≠ .none) ∧ (t.err ≠ none → t.rkind = .none) ∧ (t.rkind ≠ .bytes → t.obuf = []) ∧
      ∀ k, t.err = some k ↔ e = .raised k := by
  cases e with
  | result r => cases r <;> simp [endWith, resultKind, resultBytes]
  | raised k => simp [endWith]

/-! What a `CALL` can end with -/

theorem parseBody_bad_ofBlock {k : Nat} {body : Bytes} {e : ErrorKind} (h : parseBody k body = .bad e) :
    e.ofBlock = true ∧ e ≠ .handshakeTimeout := by
  rcases parseBody_cases k body with ⟨-, h'⟩ | ⟨_, _, _, -, ⟨-, h'⟩ | ⟨-, -, h'⟩ | ⟨-, -, -, h'⟩ | ⟨-, -, -, h'⟩⟩ <;>
    rw [h'] at h <;> cases h <;> simp [ErrorKind.ofBlock]

theorem parse_bad_ofBlock {raw : Bytes} {e : ErrorKind} (h : parse raw = .bad e) :
    e.ofBlock = true ∧ e ≠ .handshakeTimeout := by
  rcases parse_cases raw with ⟨-, h'⟩ | ⟨-, h'⟩ | ⟨k, r, -, -, h'⟩ <;> rw [h'] at h
  · cases h
  · cases h; simp [ErrorKind.ofBlock]
  · exact parseBody_bad_ofBlock h

theorem checkResponse_raised {cmd : Byte} {d : Bytes} {e : ErrorKind} (h : checkResponse cmd d = .raised e) :
    e = .unexpectedResponse := by
  match d with
  | [] => cases h; rfl
  | [_] => cases h; rfl
  | tag :: code :: r =>
    simp only [checkResponse] at h
    split at h
    · cases h; rfl
    · split at h
      · cases h; rfl
      · cases h

theorem callEnding_raised {cmd : Byte} {pend : Bytes} {e : ErrorKind} (h : callEnding cmd pend = .raised e) :
    e.ofBlock = true ∧ e ≠ .handshakeTimeout := by
  unfold callEnding at h
  split at h
  · next k hk => cases h; exact parse_bad_ofBlock hk
  · cases h
  · rw [checkResponse_raised h]; simp [ErrorKind.ofBlock]

theorem decodeEnding_raised {raw : Bytes} {e : ErrorKind} (h : decodeEnding raw = .raised e) :
    e.ofBlock = true ∧ e ≠ .handshakeTimeout := by
  unfold decodeEnding at h
  split at h
  · cases h
  · cases h
  · next k hk => cases h; exact parse_bad_ofBlock hk

theorem encodeEnding_raised {p : Bytes} {e : ErrorKind} (h : encodeEnding p = .raised e) :
    e = .invalidPayloadSize := by
  unfold encodeEnding at h
  split at h <;> cases h
  rfl

/-- The step that found an acknowledgement ends the operation, with no timeout. -/
theorem acknowledged_eq (s : State) :
    ∃ e, acknowledged s = endWith e s ∧ ∀ k, e = .raised k → k.ofBlock = true ∧ k ≠ .handshakeTimeout := by
  unfold acknowledged
  split
  · exact ⟨_, rfl, fun k h => callEnding_raised h⟩
  · exact ⟨.result (.bytes (pending s.acc)), rfl, by simp⟩

theorem acknowledged_call {s : State} (h : s.opl = Config.opCall) :
    acknowledged s = endWith (callEnding s.cmd (pending s.acc)) s := if_pos h

theorem acknowledged_send {s : State} (h : s.opl ≠ Config.opCall) :
    acknowledged s = finish (.bytes (pending s.acc)) s := if_neg h

/-- A `POLL` that finds an acknowledgement (R174, R176). -/
theorem pollStep_ack {p : Params} {s : State} (h : contains (s.acc ++ s.rxq) Config.ack = true) :
    pollStep p s = acknowledged (pollRead p s) := if_pos h

/-! The block's steps, by phase -/

theorem blockStep_idle {p : Params} {s : State} (h : s.phase = .idle) : blockStep p s = s := by simp [blockStep, h]
theorem blockStep_flush {p : Params} {s : State} (h : s.phase = .flush) : blockStep p s = flushStep s := by
  simp [blockStep, h]
theorem blockStep_write {p : Params} {s : State} (h : s.phase = .write) : blockStep p s = writeStep p s := by
  simp [blockStep, h]
theorem blockStep_poll {p : Params} {s : State} (h : s.phase = .poll) : blockStep p s = pollStep p s := by
  simp [blockStep, h]
theorem blockStep_expired {p : Params} {s : State} (h : s.phase = .expired) : blockStep p s = expiredStep p s := by
  simp [blockStep, h]
theorem blockStep_backoff {p : Params} {s : State} (h : s.phase = .backoff) : blockStep p s = backoffStep s := by
  simp [blockStep, h]

/-- Everything a `POLL` can do (R174). -/
theorem pollStep_cases (p : Params) (s : State) :
    (contains (s.acc ++ s.rxq) Config.ack = true ∧ ∃ e, pollStep p s = endWith e (pollRead p s) ∧
      ∀ k, e = .raised k → k.ofBlock = true ∧ k ≠ .handshakeTimeout) ∨
    (contains (s.acc ++ s.rxq) Config.ack = false ∧ s.ackTimeoutMs.toNat ≤ s.timer + p.pollIntervalMs ∧
      pollStep p s = { pollRead p s with phase := .expired }) ∨
    (contains (s.acc ++ s.rxq) Config.ack = false ∧ s.timer + p.pollIntervalMs < s.ackTimeoutMs.toNat ∧
      pollStep p s = pollRead p s) := by
  unfold pollStep pollDecide
  by_cases hc : contains (s.acc ++ s.rxq) Config.ack = true
  · refine .inl ⟨hc, ?_⟩
    simpa [hc] using acknowledged_eq (pollRead p s)
  · simp only [Bool.not_eq_true] at hc
    by_cases ht : s.ackTimeoutMs.toNat ≤ s.timer + p.pollIntervalMs
    · exact .inr (.inl ⟨hc, ht, by simp [hc, ht]⟩)
    · exact .inr (.inr ⟨hc, by omega, by simp [hc, ht]⟩)

/-- Everything an `EXPIRED` step can do (R177). -/
theorem expiredStep_cases (p : Params) (s : State) :
    (expiredStep p s = raise .handshakeTimeout s ∧
      (s.stop = true ∨ ∃ m, p.maxRetries = some m ∧ m < s.att)) ∨
    (expiredStep p s = { s with phase := .backoff } ∧ s.stop = false ∧ ∀ m, p.maxRetries = some m → s.att ≤ m) := by
  unfold expiredStep retriesUsedUp
  cases hs : s.stop
  · cases hm : p.maxRetries with
    | none => exact .inr ⟨by simp, rfl, by simp⟩
    | some m =>
      by_cases h : m < s.att
      · exact .inl ⟨by simp [h], .inr ⟨m, rfl, h⟩⟩
      · refine .inr ⟨by simp [h], rfl, ?_⟩
        rintro m' hm'
        cases hm'
        omega
  · exact .inl ⟨by simp, .inl rfl⟩

/-- Every block step leaves the operands, the latched operation, the frame, `STOP`, `INITED` and the model's schedule
alone, and only adds to the history. -/
theorem blockStep_frame (p : Params) (s : State) :
    let t := blockStep p s
    t.op = s.op ∧ t.opl = s.opl ∧ t.cmd = s.cmd ∧ t.ackTimeoutMs = s.ackTimeoutMs ∧
      t.retryIntervalMs = s.retryIntervalMs ∧ t.ibuf = s.ibuf ∧ t.txf = s.txf ∧ t.stop = s.stop ∧ t.inited = s.inited ∧
      t.sched = s.sched ∧ t.freeCount = s.freeCount ∧ ∃ l, t.hist = s.hist ++ l := by
  cases h : s.phase
  · simp [blockStep_idle h]
  · simp [blockStep_flush h]
  · simp [blockStep_write h]
  · rw [blockStep_poll h]
    rcases pollStep_cases p s with ⟨-, e, h', -⟩ | ⟨-, -, h'⟩ | ⟨-, -, h'⟩
    · obtain ⟨o, r, k, h''⟩ := endWith_frame e (pollRead p s)
      simp [h', h'']
    · simp [h']
    · simp [h']
  · rw [blockStep_expired h]
    rcases expiredStep_cases p s with ⟨h', -⟩ | ⟨h', -⟩ <;> simp [h']
  · simp [blockStep_backoff h]

/-! Starting each operation -/

/-- What the start step of `CALL` can do (R202). -/
theorem startCall_cases (s : State) :
    (s.ibuf.length ≤ 252 ∧ startCall s = { s with txf := buildFrame (callPayload s.cmd s.ibuf), phase := .flush }) ∨
    (s.ibuf.length > 252 ∧ startCall s = raise .invalidPayloadSize s) := by
  unfold startCall
  by_cases h : s.ibuf.length ≤ 252
  · rw [encodeFrame_of_size (by simp [callPayload]; omega)]
    exact .inl ⟨h, rfl⟩
  · rw [encodeFrame_of_not_size (by simp [callPayload]; omega)]
    exact .inr ⟨by omega, rfl⟩

theorem execChecksum_idle {s : State} (h : s.busy = false) :
    execChecksum s = .next (finish (.bytes [checksum s.ibuf]) (accept Config.opChecksum s)) := by
  simp [execChecksum, h]

theorem execEncode_idle {s : State} (h : s.busy = false) :
    execEncode s = .next (endWith (encodeEnding s.ibuf) (accept Config.opEncode s)) := by simp [execEncode, h]

theorem execDecode_idle {s : State} (h : s.busy = false) :
    execDecode s = .next (endWith (decodeEnding s.ibuf) (accept Config.opDecode s)) := by simp [execDecode, h]

theorem execSendAwaitAck_idle {s : State} (h : s.busy = false) :
    execSendAwaitAck s = .next (startSend (accept Config.opSendAwaitAck s)) := by simp [execSendAwaitAck, h]

theorem execCall_idle {s : State} (h : s.busy = false) :
    execCall s = .next (startCall (accept Config.opCall s)) := by simp [execCall, h]

theorem execInit_idle {s : State} (h : s.busy = false) :
    execInit s = .next (runInit Config.params (accept Config.opInit s)) := by simp [execInit, h]

theorem callLine_busy {c : Byte} {ps : Bytes} {s : State} (h : s.busy = true) : callLine c ps s = .next s := by
  simp [callLine, h]

theorem callLine_idle {c : Byte} {ps : Bytes} {s : State} (h : s.busy = false) :
    callLine c ps s =
      .next (startCall (accept Config.opCall { s with op := Config.opCall, cmd := c, ibuf := ps })) := by
  simp [callLine, h]

/-- The rows that are an operation or a request: a START of the host. -/
def startsOperation : Instr → Bool
  | .infoFrame _ _ _ => false
  | .ackFrame => false
  | .firmwareVersionRsp _ => false
  | .samConfigurationRsp _ => false
  | .listPassiveTargetRsp _ => false
  | .dataExchangeRsp _ => false
  | .checksum => true
  | .encode => true
  | .decode => true
  | .sendAwaitAck => true
  | .call => true
  | .init => true
  | .firmwareVersionReq _ => true
  | .samConfigurationReq _ => true
  | .listPassiveTargetReq _ => true
  | .dataExchangeReq _ => true

/-- A START while busy is ignored (R36). -/
theorem exec_busy {i : Instr} {s : State} (hi : startsOperation i = true) (h : s.busy = true) : exec i s = .next s := by
  cases i <;>
    first
    | exact startIf_busy h
    | exact callLine_busy h
    | exact Bool.noConfusion hi

/-- A row the device sends appends to `RXQ` and changes nothing else (R78). -/
theorem exec_device {i : Instr} (hi : startsOperation i = false) : ∃ d, ∀ s, exec i s = .next (deviceArrives d s) := by
  cases i <;>
    first
    | exact ⟨_, fun _ => rfl⟩
    | exact Bool.noConfusion hi

/-! Host writes -/

theorem freeBytes_length (k n : Nat) : (freeBytes k n).length = n := by
  induction n generalizing k with
  | zero => rfl
  | succ n ih => simp [freeBytes, ih]

/-- Everything a host write to an operand register can change (R32 to R36). -/
theorem writeOperand_cases (reg v : Nat) (s : State) :
    writeOperand reg v s = s ∨
    (s.busy = false ∧ ∃ o c a r i f, writeOperand reg v s =
      { s with op := o, cmd := c, ackTimeoutMs := a, retryIntervalMs := r, ibuf := i, freeCount := f }) := by
  by_cases hb : s.busy = true
  · exact .inl (by simp [writeOperand, hb])
  · simp only [Bool.not_eq_true] at hb
    match reg with
    | 0 => exact .inr ⟨hb, BitVec.ofNat 3 v, s.cmd, s.ackTimeoutMs, s.retryIntervalMs, s.ibuf, s.freeCount, by simp [writeOperand, hb]⟩
    | 1 => exact .inr ⟨hb, s.op, trunc8 v, s.ackTimeoutMs, s.retryIntervalMs, s.ibuf, s.freeCount, by simp [writeOperand, hb]⟩
    | 2 => exact .inr ⟨hb, s.op, s.cmd, BitVec.ofNat 16 v, s.retryIntervalMs, s.ibuf, s.freeCount, by simp [writeOperand, hb]⟩
    | 3 => exact .inr ⟨hb, s.op, s.cmd, s.ackTimeoutMs, BitVec.ofNat 16 v, s.ibuf, s.freeCount, by simp [writeOperand, hb]⟩
    | 7 =>
      exact .inr ⟨hb, s.op, s.cmd, s.ackTimeoutMs, s.retryIntervalMs, (setIlen (v % 65536) s).ibuf,
        (setIlen (v % 65536) s).freeCount, by simp [writeOperand, hb, setIlen]⟩
    | 4 | 5 | 6 => exact .inl (by simp [writeOperand])
    | n + 8 => exact .inl (by simp [writeOperand])

end Sys2Proof.Machine
end

