-- ==== Sys2Proof/Laws/PerInstr.lean ====
section
/-! SUPPORT. Facts per constructor of Instr: the encoding of every row carries the bits that the row's match and mask
fix in spec/opcode_table.json (30_encoding.md R125). -/

namespace Sys2Proof.Laws.RowMatch

/-- The fixed bits of the row, then whatever the row leaves open. A frame shows the table's two `00` bytes when it has
exactly two. -/
def Statement : Instr → Prop
  | .infoFrame zeros payload tail =>
    zeros = 2 → ∃ rest, encode (.infoFrame zeros payload tail) = .wire ([0x00#8, 0x00#8, 0xFF#8] ++ rest)
  | .ackFrame => encode .ackFrame = .wire [0x00#8, 0x00#8, 0xFF#8, 0x00#8, 0xFF#8, 0x00#8]
  | .checksum => encode .checksum = .op 1#3
  | .encode => encode .encode = .op 2#3
  | .decode => encode .decode = .op 3#3
  | .sendAwaitAck => encode .sendAwaitAck = .op 4#3
  | .call => encode .call = .op 5#3
  | .init => encode .init = .op 6#3
  | .firmwareVersionReq params => encode (.firmwareVersionReq params) = .payload ([0xD4#8, 0x02#8] ++ params)
  | .firmwareVersionRsp results => encode (.firmwareVersionRsp results) = .payload ([0xD5#8, 0x03#8] ++ results)
  | .samConfigurationReq params => encode (.samConfigurationReq params) = .payload ([0xD4#8, 0x14#8] ++ params)
  | .samConfigurationRsp results => encode (.samConfigurationRsp results) = .payload ([0xD5#8, 0x15#8] ++ results)
  | .listPassiveTargetReq params => encode (.listPassiveTargetReq params) = .payload ([0xD4#8, 0x4A#8] ++ params)
  | .listPassiveTargetRsp results => encode (.listPassiveTargetRsp results) = .payload ([0xD5#8, 0x4B#8] ++ results)
  | .dataExchangeReq params => encode (.dataExchangeReq params) = .payload ([0xD4#8, 0x40#8] ++ params)
  | .dataExchangeRsp results => encode (.dataExchangeRsp results) = .payload ([0xD5#8, 0x41#8] ++ results)

theorem infoFrame (zeros : Nat) (payload tail : Bytes) : Statement (.infoFrame zeros payload tail) := by
  rintro rfl
  exact ⟨_, rfl⟩

theorem ackFrame : Statement .ackFrame := rfl
theorem checksum : Statement .checksum := rfl
theorem encode : Statement .encode := rfl
theorem decode : Statement .decode := rfl
theorem sendAwaitAck : Statement .sendAwaitAck := rfl
theorem call : Statement .call := rfl
theorem init : Statement .init := rfl
theorem firmwareVersionReq (params : Bytes) : Statement (.firmwareVersionReq params) := rfl
theorem firmwareVersionRsp (results : Bytes) : Statement (.firmwareVersionRsp results) := rfl
theorem samConfigurationReq (params : Bytes) : Statement (.samConfigurationReq params) := rfl
theorem samConfigurationRsp (results : Bytes) : Statement (.samConfigurationRsp results) := rfl
theorem listPassiveTargetReq (params : Bytes) : Statement (.listPassiveTargetReq params) := rfl
theorem listPassiveTargetRsp (results : Bytes) : Statement (.listPassiveTargetRsp results) := rfl
theorem dataExchangeReq (params : Bytes) : Statement (.dataExchangeReq params) := rfl
theorem dataExchangeRsp (results : Bytes) : Statement (.dataExchangeRsp results) := rfl

end Sys2Proof.Laws.RowMatch
end

