-- ==== Sys2Proof/Laws/Step.lean ====
section
/-! SUPPORT. What starting an operation, a turn and a step can do, said once, so that no proof unfolds `step`. -/

namespace Sys2Proof.Machine

/-- Everything an accepted START can do, by operation (R140, R150, R153, R172, R202, R206). -/
inductive Started (select : BitVec 3) (s : State) : State → Prop where
  /-- `CHECKSUM`, `ENCODE`, `DECODE` end in the same step. -/
  | ended (e : Ending) (h : ∀ k, e = .raised k → k.ofBlock = true) (hsel : select ≠ Config.opInit) :
      Started select s (endWith e (accept select s))
  /-- `SEND_AWAIT_ACK`. -/
  | send (h : select = Config.opSendAwaitAck) : Started select s (startSend (accept select s))
  /-- `CALL`. -/
  | call (h : select = Config.opCall) : Started select s (startCall (accept select s))
  /-- `INIT`. -/
  | init (h : select = Config.opInit) : Started select s (runInit Config.params (accept select s))

/-- What decodes from `OP` is the operation of that code (R121). -/
theorem decodeOp_cases {o : BitVec 3} {i : Instr} (h : decodeOp o = .ok i) :
    (o = Config.opChecksum ∧ i = .checksum) ∨ (o = Config.opEncode ∧ i = .encode) ∨
    (o = Config.opDecode ∧ i = .decode) ∨ (o = Config.opSendAwaitAck ∧ i = .sendAwaitAck) ∨
    (o = Config.opCall ∧ i = .call) ∨ (o = Config.opInit ∧ i = .init) := by
  unfold decodeOp at h
  repeat' split at h
  all_goals cases h
  all_goals simp_all

/-- A START whose `OP` decodes: ignored while busy, and otherwise the operation starts. -/
theorem start_cases {s t : State} (h : start s = .next t) :
    t = s ∨ (s.busy = false ∧ Started s.op s t) := by
  unfold start at h
  split at h
  · next i hi =>
    by_cases hb : s.busy = true
    · left
      rcases decodeOp_cases hi with ⟨-, rfl⟩ | ⟨-, rfl⟩ | ⟨-, rfl⟩ | ⟨-, rfl⟩ | ⟨-, rfl⟩ | ⟨-, rfl⟩ <;>
        rw [exec_busy rfl hb] at h <;> cases h <;> rfl
    · simp only [Bool.not_eq_true] at hb
      refine .inr ⟨hb, ?_⟩
      rcases decodeOp_cases hi with ⟨ho, rfl⟩ | ⟨ho, rfl⟩ | ⟨ho, rfl⟩ | ⟨ho, rfl⟩ | ⟨ho, rfl⟩ | ⟨ho, rfl⟩
      · rw [exec, execChecksum_idle hb] at h
        cases h
        rw [ho]
        exact .ended (.result (.bytes [checksum s.ibuf])) (by simp) (by decide)
      · rw [exec, execEncode_idle hb] at h
        cases h
        rw [ho]
        exact .ended _ (fun k hk => by rw [encodeEnding_raised hk]; rfl) (by decide)
      · rw [exec, execDecode_idle hb] at h
        cases h
        rw [ho]
        exact .ended _ (fun k hk => (decodeEnding_raised hk).1) (by decide)
      · rw [exec, execSendAwaitAck_idle hb] at h
        cases h
        rw [ho]
        exact .send rfl
      · rw [exec, execCall_idle hb] at h
        cases h
        rw [ho]
        exact .call rfl
      · rw [exec, execInit_idle hb] at h
        cases h
        rw [ho]
        exact .init rfl
  · cases h
    exact .inl rfl

/-- A `CALL` line: ignored while busy, and otherwise the operands are written and `CALL` starts. -/
theorem callLine_cases {c : Byte} {ps : Bytes} {s t : State} (h : callLine c ps s = .next t) :
    t = s ∨ (s.busy = false ∧
      Started Config.opCall { s with op := Config.opCall, cmd := c, ibuf := ps } t) := by
  by_cases hb : s.busy = true
  · rw [callLine_busy hb] at h
    cases h
    exact .inl rfl
  · simp only [Bool.not_eq_true] at hb
    rw [callLine_idle hb] at h
    cases h
    exact .inr ⟨hb, .call rfl⟩

/-- A request payload runs the `CALL` of its code, listed or not (R114). -/
theorem hostCallLine_eq (c : Byte) (ps : Bytes) (s : State) : hostCallLine c ps s = callLine c ps s := by
  unfold hostCallLine
  simp only [decode, payloadBytes, decodePayload, if_true, decodeRequest]
  by_cases h1 : c = Config.cmdFirmwareVersion
  · rw [if_pos h1, h1]; rfl
  rw [if_neg h1]
  by_cases h2 : c = Config.cmdSamConfiguration
  · rw [if_pos h2, h2]; rfl
  rw [if_neg h2]
  by_cases h3 : c = Config.cmdListPassiveTarget
  · rw [if_pos h3, h3]; rfl
  rw [if_neg h3]
  by_cases h4 : c = Config.cmdDataExchange
  · rw [if_pos h4, h4]; rfl
  rw [if_neg h4]

/-- A response payload arrives in its frame, whatever its code. -/
theorem deviceRespondLine_eq (c : Byte) (r : Bytes) (s : State) : deviceRespondLine c r s = respondLine c r s := by
  unfold deviceRespondLine
  simp only [decode, payloadBytes, decodePayload, if_true, decodeResponse,
    if_neg (show ¬ Config.tagD2H = Config.tagH2D by decide)]
  by_cases h0 : r.length > 253
  · rw [if_pos h0]
  rw [if_neg h0]
  by_cases h1 : c = Config.rspFirmwareVersion
  · rw [if_pos h1, h1]; rfl
  rw [if_neg h1]
  by_cases h2 : c = Config.rspSamConfiguration
  · rw [if_pos h2, h2]; rfl
  rw [if_neg h2]
  by_cases h3 : c = Config.rspListPassiveTarget
  · rw [if_pos h3, h3]; rfl
  rw [if_neg h3]
  by_cases h4 : c = Config.rspDataExchange
  · rw [if_pos h4, h4]; rfl
  rw [if_neg h4]

/-- What a `device:` line decodes to is no START. -/
theorem decodeWire_device {raw : Bytes} {i : Instr} (h : decodeWire raw = .ok i) : startsOperation i = false := by
  unfold decodeWire at h
  split at h <;> cases h <;> rfl

/-- A `device:` line adds bytes to `RXQ`. -/
theorem deviceLine_next (raw : Bytes) (s : State) : ∃ d, deviceLine raw s = .next (deviceArrives d s) := by
  unfold deviceLine
  split
  · next i hi =>
    obtain ⟨d, hd⟩ := exec_device (decodeWire_device hi)
    exact ⟨d, hd s⟩
  · exact ⟨raw, rfl⟩

/-- Everything one turn can do when it answers a next state; `s` has the turn already taken off the schedule. -/
inductive Moved (p : Params) (turn : Turn) (s : State) : State → Prop where
  /-- The block's own step. -/
  | block (h : turn = .block) : Moved p turn s (blockStep p s)
  /-- A host access that is ignored, or a START that is. -/
  | ignored : Moved p turn s s
  /-- An accepted START of the operation in `OP`. -/
  | started (t : State) (hb : s.busy = false) (v : Nat) (h : turn = .hostWrite 4 v) (hv : v % 2 = 1)
      (ht : Started s.op s t) : Moved p turn s t
  /-- An accepted `CALL` line. -/
  | called (t : State) (hb : s.busy = false) (c : Byte) (ps : Bytes) (h : turn = .hostCall c ps)
      (ht : Started Config.opCall { s with op := Config.opCall, cmd := c, ibuf := ps } t) : Moved p turn s t
  /-- A host write to operands while idle. -/
  | operands (hb : s.busy = false) (o : BitVec 3) (c : Byte) (a r : BitVec 16) (i : Bytes) (f : Nat) :
      Moved p turn s { s with op := o, cmd := c, ackTimeoutMs := a, retryIntervalMs := r, ibuf := i, freeCount := f }
  /-- The host drives `STOP`. -/
  | stopped (level : Bool) (h : turn = .hostStop level) : Moved p turn s { s with stop := level }
  /-- The device sends bytes. -/
  | arrived (d : Bytes) : Moved p turn s (deviceArrives d s)
  /-- The reset input. -/
  | reset (rxq : Bytes) (h : turn = .reset rxq) : Moved p turn s (applyReset rxq s)

theorem hostWriteReg_moved {p : Params} {reg v : Nat} {s t : State} (h : hostWriteReg reg v s = .next t) :
    Moved p (.hostWrite reg v) s t := by
  unfold hostWriteReg at h
  by_cases hr : reg = 4
  · subst hr
    rw [if_pos rfl] at h
    by_cases hv : v % 2 = 1
    · rw [if_pos hv] at h
      rcases start_cases h with rfl | ⟨hb, hs⟩
      · exact .ignored
      · exact .started t hb v rfl hv hs
    · rw [if_neg hv] at h
      cases h
      exact .ignored
  · rw [if_neg hr] at h
    by_cases h8 : reg ≤ 8
    · rw [if_pos h8] at h
      cases h
      rcases writeOperand_cases reg v s with h' | ⟨hb, o, c, a, r, i, f, h'⟩ <;> rw [h']
      · exact .ignored
      · exact .operands hb o c a r i f
    · rw [if_neg h8] at h
      cases h

theorem applyTurn_moved {p : Params} {turn : Turn} {s t : State} (h : applyTurn p turn s = .next t) :
    Moved p turn s t := by
  cases turn with
  | block => cases h; exact .block rfl
  | hostWrite reg v => exact hostWriteReg_moved h
  | hostSetIbuf bytes =>
    cases h
    unfold setIbuf
    by_cases hb : s.busy = true
    · rw [if_pos hb]
      exact .ignored
    · rw [if_neg hb]
      exact .operands (by simpa using hb) s.op s.cmd s.ackTimeoutMs s.retryIntervalMs bytes s.freeCount
  | hostPatchIbuf off bytes =>
    simp only [applyTurn, hostPatch] at h
    by_cases hb : s.busy = true
    · rw [if_pos hb] at h
      cases h
      exact .ignored
    · rw [if_neg hb] at h
      cases hm : memWrite s.ibuf off bytes with
      | none => rw [hm] at h; cases h
      | some buf =>
        rw [hm] at h
        cases h
        exact .operands (by simpa using hb) s.op s.cmd s.ackTimeoutMs s.retryIntervalMs buf s.freeCount
  | hostCall c ps =>
    simp only [applyTurn, hostCallLine_eq] at h
    rcases callLine_cases h with rfl | ⟨hb, hs⟩
    · exact .ignored
    · exact .called t hb c ps rfl hs
  | hostStop level => cases h; exact .stopped level rfl
  | device raw =>
    obtain ⟨d, hd⟩ := deviceLine_next raw s
    simp only [applyTurn, hd] at h
    cases h
    exact .arrived d
  | deviceRespond c r =>
    simp only [applyTurn, deviceRespondLine_eq, respondLine] at h
    cases h
    exact .arrived _
  | reset rxq => cases h; exact .reset rxq rfl

/-- Everything a step can do when it answers a next state: the block's own step when the schedule is empty, and
otherwise the next turn. -/
theorem step_next_cases {s t : State} (h : step s = .next t) :
    (s.sched = [] ∧ t = blockStep Config.params s) ∨
    ∃ turn rest, s.sched = turn :: rest ∧ Moved Config.params turn { s with sched := rest } t := by
  unfold step runTurn at h
  cases hs : s.sched with
  | nil =>
    rw [hs] at h
    cases h
    exact .inl ⟨rfl, rfl⟩
  | cons turn rest =>
    rw [hs] at h
    exact .inr ⟨turn, rest, rfl, applyTurn_moved h⟩

/-- A step whose schedule lists a turn is that turn. -/
theorem step_cons {s : State} {turn : Turn} {rest : List Turn} (h : s.sched = turn :: rest) :
    step s = applyTurn Config.params turn { s with sched := rest } := by
  unfold step runTurn
  rw [h]

@[simp] theorem steps_zero (s : State) : steps 0 s = .next s := rfl

/-- A run of steps goes on from the next state. -/
theorem steps_succ {n : Nat} {s t : State} (h : step s = .next t) : steps (n + 1) s = steps n t := by simp [steps, h]

end Sys2Proof.Machine
end

