-- ==== Sys2Proof/Tests/Slice0.lean ====
section
/-! SUPPORT. The model's own tests: words written out from the tables of 30_encoding.md, one step each on a small state
with the results printed in 95_test_vectors.md, ill-formed terms, and for every obligation with hypotheses a state and
operands that meet them. -/

namespace Sys2Proof.Tests

open Sys2Proof.Machine

/-- Parameters with values, for tests only: a poll every 10 ms (95_test_vectors.md section 6). -/
def params (retries : Option Nat) (clear : Bool) : Params where
  pollIntervalMs := 10
  maxRetries := retries
  accClearOnRetry := clear
  wakeup := [0x55#8]
  ackTimeoutDefault := 30#16
  retryIntervalDefault := 50#16

/-- An idle block with a window of 30 ms. -/
def base : State where
  op := 0#3
  cmd := 0x02#8
  ackTimeoutMs := 30#16
  retryIntervalMs := 50#16
  stop := false
  phase := .idle
  timer := 0
  att := 0
  opl := 0#3
  busy := false
  done := false
  err := none
  rkind := .none
  inited := false
  ibuf := []
  obuf := []
  txf := []
  acc := []
  rxq := []
  hist := []
  waitedMs := 0
  sched := []
  freeCount := 0

/-- The idle block with bytes in `IBUF`. -/
def withIbuf (bytes : Bytes) : State := { base with ibuf := bytes }

/-- A running operation in a phase, with `ACC` and `RXQ`. -/
def running (select : BitVec 3) (phase : Phase) (acc rxq : Bytes) : State :=
  { base with op := select, opl := select, busy := true, phase := phase, acc := acc, rxq := rxq, att := 1 }

/-- The state of a next outcome. -/
def nextOf : Outcome → Option State
  | .next s => some s
  | .fault _ => none
  | .refused _ => none

/-- `OBUF` and `STATUS` after a step. -/
def shown (o : Outcome) : Option (Bytes × BitVec 8) := (nextOf o).map (fun s => (s.obuf, s.status))

/-- A byte many times over. -/
def many (n : Nat) (b : Byte) : Bytes := List.replicate n b

theorem many_length (n : Nat) (b : Byte) : (many n b).length = n := List.length_replicate

/-- The frame that a step loaded, and `STATUS`. -/
def sent (o : Outcome) : Option (Bytes × BitVec 8) := (nextOf o).map (fun s => (s.txf, s.status))

/-- `RXQ` after a step. -/
def received (o : Outcome) : Option Bytes := (nextOf o).map (fun s => s.rxq)

/-- The instruction a word decodes to. -/
def decoded (e : Encoded) : Option Instr := (decode e).toOption

def firmwareFrame : Bytes := [0x00#8, 0x00#8, 0xFF#8, 0x06#8, 0xFA#8, 0xD5#8, 0x03#8, 0x32#8, 0x01#8, 0x06#8, 0x07#8, 0xE8#8, 0x00#8]
def requestFrame : Bytes := [0x00#8, 0x00#8, 0xFF#8, 0x02#8, 0xFE#8, 0xD4#8, 0x02#8, 0x2A#8, 0x00#8]

/-! ## WellFormed refuses (R103, R116, R156) -/

theorem test_wf_frame_without_leading_zero : (Instr.infoFrame 0 [0x7F#8] []).wf = false := by decide
theorem test_wf_frame_payload_too_long : (Instr.infoFrame 2 (many 256 0x00#8) []).wf = false := by
  simp [Instr.wf, many_length]
theorem test_wf_firmware_response_too_long : (Instr.firmwareVersionRsp (many 254 0x00#8)).wf = false := by
  simp [Instr.wf, many_length]
theorem test_wf_sam_response_too_long : (Instr.samConfigurationRsp (many 254 0x00#8)).wf = false := by
  simp [Instr.wf, many_length]
theorem test_wf_list_response_too_long : (Instr.listPassiveTargetRsp (many 254 0x00#8)).wf = false := by
  simp [Instr.wf, many_length]
theorem test_wf_exchange_response_too_long : (Instr.dataExchangeRsp (many 254 0x00#8)).wf = false := by
  simp [Instr.wf, many_length]

/-! ## Words written out from the tables (R100, R104, R113, R121) -/

theorem test_decode_checksum : decoded (.op 0b001#3) = some .checksum := by decide
theorem test_decode_encode : decoded (.op 0b010#3) = some .encode := by decide
theorem test_decode_decode : decoded (.op 0b011#3) = some .decode := by decide
theorem test_decode_send : decoded (.op 0b100#3) = some .sendAwaitAck := by decide
theorem test_decode_call : decoded (.op 0b101#3) = some .call := by decide
theorem test_decode_init : decoded (.op 0b110#3) = some .init := by decide
theorem test_decode_reserved_zero : decode (.op 0b000#3) = .error .reservedOp := by rfl
theorem test_decode_reserved_seven : decode (.op 0b111#3) = .error .reservedOp := by rfl
theorem test_decode_ack_frame : decoded (.wire [0x00#8, 0x00#8, 0xFF#8, 0x00#8, 0xFF#8, 0x00#8]) = some .ackFrame := by decide
theorem test_decode_info_frame : decoded (.wire [0x00#8, 0x00#8, 0xFF#8, 0x02#8, 0xFE#8, 0xD4#8, 0x02#8, 0x2A#8, 0x00#8]) =
    some (.infoFrame 2 [0xD4#8, 0x02#8] [0x00#8]) := by decide
/-- V-D22. -/
theorem test_decode_no_negative_acknowledgement : decode (.wire [0x00#8, 0x00#8, 0xFF#8, 0xFF#8, 0x00#8, 0x00#8]) =
    .error (.notFrame .lengthChecksumMismatch) := by rfl
theorem test_decode_firmwareVersionReq : decoded (.payload [0xD4#8, 0x02#8, 0x09#8]) = some (.firmwareVersionReq [0x09#8]) := by decide
theorem test_decode_samConfigurationReq : decoded (.payload [0xD4#8, 0x14#8, 0x09#8]) = some (.samConfigurationReq [0x09#8]) := by decide
theorem test_decode_listPassiveTargetReq : decoded (.payload [0xD4#8, 0x4A#8, 0x09#8]) = some (.listPassiveTargetReq [0x09#8]) := by decide
theorem test_decode_dataExchangeReq : decoded (.payload [0xD4#8, 0x40#8, 0x09#8]) = some (.dataExchangeReq [0x09#8]) := by decide
theorem test_decode_firmwareVersionRsp : decoded (.payload [0xD5#8, 0x03#8, 0x09#8]) = some (.firmwareVersionRsp [0x09#8]) := by decide
theorem test_decode_samConfigurationRsp : decoded (.payload [0xD5#8, 0x15#8, 0x09#8]) = some (.samConfigurationRsp [0x09#8]) := by decide
theorem test_decode_listPassiveTargetRsp : decoded (.payload [0xD5#8, 0x4B#8, 0x09#8]) = some (.listPassiveTargetRsp [0x09#8]) := by decide
theorem test_decode_dataExchangeRsp : decoded (.payload [0xD5#8, 0x41#8, 0x09#8]) = some (.dataExchangeRsp [0x09#8]) := by decide
theorem test_decode_unlisted_code : decode (.payload [0xD4#8, 0x03#8]) = .error .unlistedCode := by rfl
theorem test_decode_bad_tag : decode (.payload [0xD6#8, 0x02#8]) = .error .badTag := by rfl

/-! Rows of the opcode table as numbers (log 9) -/

theorem test_row_op : decodeTableWord 8 3 = some .decode := by decide
theorem test_row_info_frame_first_byte_high : decodeTableWord 24 0x0000FF = some (.infoFrame 2 [] [0x00#8]) := by decide
theorem test_row_info_frame_first_byte_low : decodeTableWord 24 0xFF0000 = some (.infoFrame 2 [] [0x00#8]) := by decide
theorem test_row_ack_frame_first_byte_high : decodeTableWord 48 0x0000FF00FF00 = some .ackFrame := by decide
theorem test_row_ack_frame_first_byte_low : decodeTableWord 48 0x00FF00FF0000 = some .ackFrame := by decide
theorem test_row_request_first_byte_high : decodeTableWord 16 0xD44A = some (.listPassiveTargetReq []) := by decide
theorem test_row_request_first_byte_low : decodeTableWord 16 0x4AD4 = some (.listPassiveTargetReq []) := by decide
theorem test_row_response : decodeTableWord 16 0xD541 = some (.dataExchangeRsp []) := by decide
theorem test_placed_row_runs_from_reset : step (State.reset.withFetchWord 8 3) =
    exec .decode { State.reset with op := 3#3 } := by rfl
theorem test_placed_request_runs_from_reset : step (State.reset.withFetchWord 16 0xD402) =
    exec (.firmwareVersionReq []) State.reset := by rfl
theorem test_reset_starts_with_nothing_to_run : step State.reset = .next State.reset := by rfl

/-! ## One step per instruction, against 95_test_vectors.md -/

/-- V-C6. -/
theorem test_checksum_example : shown (exec .checksum (withIbuf [0xD4#8, 0x02#8])) = some ([0x2A#8], 0x06#8) := by decide
/-- V-C4. -/
theorem test_checksum_wraps : shown (exec .checksum (withIbuf [0xFF#8])) = some ([0x01#8], 0x06#8) := by decide
/-- V-E3. -/
theorem test_encode_frame : shown (exec .encode (withIbuf [0xD4#8, 0x4A#8, 0x01#8, 0x00#8])) =
    some ([0x00#8, 0x00#8, 0xFF#8, 0x04#8, 0xFC#8, 0xD4#8, 0x4A#8, 0x01#8, 0x00#8, 0xE1#8, 0x00#8], 0x06#8) := by decide
/-- V-E9. -/
theorem test_encode_empty : shown (exec .encode (withIbuf [])) = some ([], 0x12#8) := by decide
/-- V-D15, the sequence a clipping decoder would accept. -/
theorem test_decode_short_is_not_clipped : shown (exec .decode (withIbuf [0x00#8, 0x00#8, 0xFF#8, 0x02#8, 0xFE#8, 0x00#8, 0x00#8])) =
    some ([], 0x42#8) := by decide
/-- V-D19. -/
theorem test_decode_empty_payload : shown (exec .decode (withIbuf [0x00#8, 0x00#8, 0xFF#8, 0x00#8, 0x00#8, 0x00#8, 0x00#8])) = some ([], 0x06#8) := by decide
/-- R172. -/
theorem test_send_starts : sent (exec .sendAwaitAck (withIbuf [0x00#8, 0x00#8, 0xFF#8, 0x02#8, 0xFE#8, 0xD4#8, 0x02#8, 0x2A#8, 0x00#8])) = some (requestFrame, 0x01#8) := by decide
/-- V-H11. -/
theorem test_call_starts : sent (exec .call { base with cmd := 0xFF#8 }) = some ([0x00#8, 0x00#8, 0xFF#8, 0x02#8, 0xFE#8, 0xD4#8, 0xFF#8, 0x2D#8, 0x00#8], 0x01#8) := by decide
/-- V-H18, whatever the wake-up bytes are. -/
theorem test_init : exec .init base = .next { base with
    hist := [.write Config.wakeup], inited := true, rkind := .bytes, done := true, opl := 6#3 } := by rfl
/-- V-S1, V-H1. -/
theorem test_firmware_request : sent (exec (.firmwareVersionReq []) base) = some (requestFrame, 0x01#8) := by decide
/-- V-H20. -/
theorem test_sam_request : sent (exec (.samConfigurationReq [0x01#8, 0x14#8, 0x01#8]) base) =
    some ([0x00#8, 0x00#8, 0xFF#8, 0x05#8, 0xFB#8, 0xD4#8, 0x14#8, 0x01#8, 0x14#8, 0x01#8, 0x02#8, 0x00#8], 0x01#8) := by decide
/-- P2. -/
theorem test_list_request : sent (exec (.listPassiveTargetReq [0x01#8, 0x00#8]) base) =
    some ([0x00#8, 0x00#8, 0xFF#8, 0x04#8, 0xFC#8, 0xD4#8, 0x4A#8, 0x01#8, 0x00#8, 0xE1#8, 0x00#8], 0x01#8) := by decide
/-- V-H7. -/
theorem test_exchange_request : sent (exec (.dataExchangeReq [0x01#8, 0x30#8, 0x04#8]) base) =
    some ([0x00#8, 0x00#8, 0xFF#8, 0x05#8, 0xFB#8, 0xD4#8, 0x40#8, 0x01#8, 0x30#8, 0x04#8, 0xB7#8, 0x00#8], 0x01#8) := by decide
/-- V-E6. -/
theorem test_firmware_response : received (exec (.firmwareVersionRsp [0x32#8, 0x01#8, 0x06#8, 0x07#8]) base) = some firmwareFrame := by decide
/-- V-H20. -/
theorem test_sam_response : received (exec (.samConfigurationRsp []) base) = some [0x00#8, 0x00#8, 0xFF#8, 0x02#8, 0xFE#8, 0xD5#8, 0x15#8, 0x16#8, 0x00#8] := by decide
/-- V-E11. -/
theorem test_list_response : received (exec (.listPassiveTargetRsp [0x01#8, 0x01#8, 0x00#8, 0x04#8, 0x08#8, 0x04#8, 0x01#8, 0x02#8, 0x03#8, 0x04#8]) base) =
    some [0x00#8, 0x00#8, 0xFF#8, 0x0C#8, 0xF4#8, 0xD5#8, 0x4B#8, 0x01#8, 0x01#8, 0x00#8, 0x04#8, 0x08#8, 0x04#8, 0x01#8, 0x02#8, 0x03#8, 0x04#8, 0xC4#8, 0x00#8] := by decide
/-- P5. -/
theorem test_exchange_response : received (exec (.dataExchangeRsp [0x00#8]) { base with rxq := Config.ack }) =
    some (Config.ack ++ [0x00#8, 0x00#8, 0xFF#8, 0x03#8, 0xFD#8, 0xD5#8, 0x41#8, 0x00#8, 0xEA#8, 0x00#8]) := by decide
/-- R116: more leading zeros, and bytes after the payload checksum. -/
theorem test_info_frame_arrives : received (exec (.infoFrame 3 [0xD5#8, 0x15#8] [0x77#8]) { base with rxq := [0x5A#8] }) =
    some [0x5A#8, 0x00#8, 0x00#8, 0x00#8, 0xFF#8, 0x02#8, 0xFE#8, 0xD5#8, 0x15#8, 0x16#8, 0x77#8] := by decide
/-- R104. -/
theorem test_ack_frame_arrives : received (exec .ackFrame base) = some [0x00#8, 0x00#8, 0xFF#8, 0x00#8, 0xFF#8, 0x00#8] := by decide

/-! ## Steps of the handshake -/

/-- `OBUF`, `STATUS`, `ATT` and the reads of a block step. -/
def afterBlock (s : State) : Bytes × BitVec 8 × Nat × List Event :=
  let t := blockStep (params none false) s
  (t.obuf, t.status, t.att, t.hist)

/-- V-H1, the poll. -/
theorem test_poll_call_result : afterBlock (running 5#3 .poll [] (Config.ack ++ firmwareFrame)) =
    ([0x32#8, 0x01#8, 0x06#8, 0x07#8], 0x06#8, 1, [.read (Config.ack ++ firmwareFrame)]) := by decide
/-- V-H11, the poll. -/
theorem test_poll_call_code_does_not_wrap : (let r := Config.ack ++ [0x00#8, 0x00#8, 0xFF#8, 0x02#8, 0xFE#8, 0xD5#8, 0x00#8, 0x2B#8, 0x00#8]
    afterBlock { running 5#3 .poll [] r with cmd := 0xFF#8 } = ([], 0x52#8, 1, [.read r])) := by decide
/-- V-H3, the second poll. -/
theorem test_poll_split_acknowledgement : afterBlock (running 5#3 .poll [0x00#8, 0x00#8, 0xFF#8] ([0x00#8, 0xFF#8, 0x00#8] ++ firmwareFrame)) =
    ([0x32#8, 0x01#8, 0x06#8, 0x07#8], 0x06#8, 1, [.read ([0x00#8, 0xFF#8, 0x00#8] ++ firmwareFrame)]) := by decide
/-- V-H15, the poll. -/
theorem test_poll_send_result : afterBlock (running 4#3 .poll [] (Config.ack ++ firmwareFrame)) =
    (firmwareFrame, 0x06#8, 1, [.read (Config.ack ++ firmwareFrame)]) := by decide
/-- V-K7. -/
theorem test_strip_is_one_pass : strip ([0x00#8, 0x00#8, 0xFF#8] ++ Config.ack ++ [0x00#8, 0xFF#8, 0x00#8]) = Config.ack := by decide
/-- V-K6. -/
theorem test_strip_shared_zero : strip [0x00#8, 0x00#8, 0xFF#8, 0x00#8, 0xFF#8, 0x00#8, 0x00#8, 0xFF#8, 0x00#8, 0xFF#8, 0x00#8] = [0x00#8, 0xFF#8, 0x00#8, 0xFF#8, 0x00#8] := by decide
/-- P3: at 30 ms of a 25 ms window. -/
theorem test_window_expires : (blockStep (params none false)
    { running 5#3 .poll [] [] with timer := 20, ackTimeoutMs := 25#16 }).phase = .expired := by decide
/-- V-H5b. -/
theorem test_bounded_retries_used_up : (blockStep (params (some 0) false) (running 5#3 .expired [] [])).status = 0xB2#8 := by decide
/-- V-H5c, the first expiry. -/
theorem test_bounded_retries_left : (blockStep (params (some 1) false) (running 5#3 .expired [] [])).phase = .backoff := by decide
/-- V-H13a and V-H13b. -/
theorem test_write_clears_or_keeps : (blockStep (params none false) (running 5#3 .write [0xAA#8] [])).acc = [0xAA#8] ∧
    (blockStep (params none true) (running 5#3 .write [0xAA#8] [])).acc = [] := by decide
/-- V-H19. -/
theorem test_start_while_busy_is_ignored : nextOf (exec .checksum (running 5#3 .poll [] [])) = some (running 5#3 .poll [] []) := by decide
/-- R12. -/
theorem test_host_read_beyond : ({ base with obuf := [0x01#8] }).hostReadBuffer .obuf 1 1 = none := by decide

/-! ## Witnesses: every hypothesis of every obligation is met -/

theorem witness_LengthChecksumIsTheOneByte :
    (1 ≤ (0x01#8).toNat ∧ (0x01#8).toNat ≤ 254) ∧ (1 ≤ (0xFE#8).toNat ∧ (0xFE#8).toNat ≤ 254) := by decide

theorem witness_ChecksumClosedForm : [0xD4#8, 0x02#8].Perm [0x02#8, 0xD4#8] := by decide

theorem witness_EncoderEmitsFramesOrRefuses :
    encodeEnding [] = .raised .invalidPayloadSize ∧
    (1 ≤ [0x00#8].length ∧ [0x00#8].length ≤ 254) ∧
    (1 ≤ (many 254 0xAA#8).length ∧ (many 254 0xAA#8).length ≤ 254) := by
  refine ⟨by decide, by decide, ?_⟩
  simp [many_length]

theorem witness_EncodedFrameFacts : encodeFrame [0xD4#8, 0x02#8] = some requestFrame := by decide

theorem witness_DecodeOfEncodeIsThePayload :
    (1 ≤ [0x00#8].length ∧ [0x00#8].length ≤ 254) ∧
    (1 ≤ (many 254 0xAA#8).length ∧ (many 254 0xAA#8).length ≤ 254) := by simp [many_length]

/-- The clauses of the table, one row each, in order; the third has no hypothesis. -/
theorem witness_DecoderRejectsByTheTable :
    (0x01#8 : Byte) ≠ 0x00#8 ∧
    ((0x37#8 : Byte) ≠ 0x00#8 ∧ (0x37#8 : Byte) ≠ 0xFF#8) ∧
    (1 ≤ 2 ∧ [0x02#8].length < 2) ∧
    (1 ≤ 2 ∧ ((0x02#8).toNat + (0xFD#8).toNat) % 256 ≠ 0 ∧
      List.replicate 2 0x00#8 ++ 0xFF#8 :: 0x02#8 :: 0xFD#8 :: [0xD4#8] ≠ Config.ack) ∧
    (1 ≤ 2 ∧ ((0x02#8).toNat + (0xFE#8).toNat) % 256 = 0 ∧ [0xD4#8, 0x02#8].length < (0x02#8).toNat + 1) ∧
    (1 ≤ 2 ∧ ((0x02#8).toNat + (0xFE#8).toNat) % 256 = 0 ∧ [0xD4#8, 0x02#8].length = (0x02#8).toNat ∧
      checksum ([0xD4#8, 0x02#8] ++ [0x2B#8]) ≠ 0x00#8) := by decide

theorem witness_AckWithMoreBytesIsNoSentinel : decodeEnding Config.ack = .result .ackSentinel := by decide

theorem witness_DetectorFindsAckAtAnyOffset : (running 4#3 .poll [] Config.ack).phase = .poll := by decide

theorem witness_StripRemovesAcknowledgements :
    ¬ Config.ack <+: [0xAA#8] ∧ strip [0xAA#8] ≠ [] ∧ strip Config.ack = [] := by decide

/-- The branches of `CALL`'s ending, in order: a decoder error, the sentinel, a payload of one byte, a wrong tag, a
wrong code, a match. -/
theorem witness_CallEndingsInOrder :
    decodeWalk [] = .raised .malformedPreamble ∧ decodeWalk Config.ack = .result .ackSentinel ∧
    decodeWalk [0x00#8, 0x00#8, 0xFF#8, 0x01#8, 0xFF#8, 0xD5#8, 0x2B#8, 0x00#8] = .result (.bytes [0xD5#8]) ∧
    decodeWalk [0x00#8, 0x00#8, 0xFF#8, 0x02#8, 0xFE#8, 0xD4#8, 0x03#8, 0x29#8, 0x00#8] =
      .result (.bytes [0xD4#8, 0x03#8]) ∧ (0xD4#8 : Byte) ≠ 0xD5#8 ∧
    decodeWalk firmwareFrame = .result (.bytes [0xD5#8, 0x03#8, 0x32#8, 0x01#8, 0x06#8, 0x07#8]) ∧
    (0x03#8).toNat ≠ (0x03#8).toNat + 1 ∧ (0x03#8).toNat = (0x02#8).toNat + 1 := by decide

theorem witness_PayloadHeadersOfTheListedCommands :
    ([] : Bytes).length ≤ 253 ∧ (many 253 0x00#8).length ≤ 253 := by simp [many_length]

theorem witness_DecodeEncodeRoundTrip :
    (Instr.infoFrame 1 [] []).wf = true ∧ (Instr.infoFrame 9 (many 255 0x11#8) [0x77#8]).wf = true ∧
    (Instr.dataExchangeRsp (many 253 0x00#8)).wf = true := by
  simp [Instr.wf, many_length]

theorem witness_EncodeDecodeRoundTrip : decode (.wire requestFrame) = .ok (.infoFrame 2 [0xD4#8, 0x02#8] [0x00#8]) := by
  rfl

/-- For `ChecksumCompletes`, `EncodeCompletes`, `SendAwaitAckStarts`, `InitCompletes` and the idle clauses of the others:
an idle block. -/
theorem witness_ChecksumCompletes : base.busy = false := by decide

theorem witness_SendAwaitAckStarts : base.busy = false := by decide

theorem witness_InitCompletes : base.busy = false := by decide

theorem witness_EncodeCompletes :
    ((withIbuf [0x00#8]).busy = false ∧ 1 ≤ (withIbuf [0x00#8]).ibuf.length ∧ (withIbuf [0x00#8]).ibuf.length ≤ 254) ∧
    (withIbuf (many 254 0xAA#8)).ibuf.length ≤ 254 ∧ (withIbuf []).ibuf.length = 0 ∧
    (withIbuf (many 255 0xAA#8)).ibuf.length ≥ 255 := by simp [withIbuf, base, many_length]

theorem witness_DecodeCompletes :
    (withIbuf Config.ack).busy = false ∧ decodeWalk (withIbuf Config.ack).ibuf = .result .ackSentinel ∧
    decodeWalk (withIbuf requestFrame).ibuf = .result (.bytes [0xD4#8, 0x02#8]) ∧
    decodeWalk (withIbuf []).ibuf = .raised .malformedPreamble := by decide

theorem witness_CallStarts :
    base.busy = false ∧ (withIbuf []).ibuf.length ≤ 252 ∧ (withIbuf (many 252 0x00#8)).ibuf.length ≤ 252 ∧
    (withIbuf (many 253 0x00#8)).ibuf.length > 252 := by simp [withIbuf, base, many_length]

theorem witness_RequestRowsStartTheirCall :
    base.busy = false ∧ ([] : Bytes).length ≤ 252 ∧ (many 252 0x00#8).length ≤ 252 ∧
    (many 253 0x00#8).length > 252 := by simp [base, many_length]

theorem witness_DeviceRowsArrive : ([] : Bytes).length ≤ 255 ∧ (many 255 0x11#8).length ≤ 255 := by simp [many_length]

theorem witness_StartWhileBusyChangesNothing : (running 5#3 .poll [] []).busy = true := by decide

theorem witness_FlushStepEffect : (running 4#3 .flush [] [0x5A#8]).phase = .flush := by decide

theorem witness_WriteStepEffect :
    (running 4#3 .write [] []).phase = .write ∧ (params none false).accClearOnRetry = false ∧
    (params none true).accClearOnRetry = true := by decide

/-- The four ways a poll goes on, and the three endings of `CALL`. -/
theorem witness_PollStepEffect :
    (running 4#3 .poll [] Config.ack).phase = .poll ∧ contains ([] ++ Config.ack) Config.ack = true ∧
    (running 4#3 .poll [] Config.ack).opl = 4#3 ∧ (running 5#3 .poll [] Config.ack).opl = 5#3 ∧
    callEnding 0x02#8 (pending (Config.ack ++ firmwareFrame)) =
      .result (.bytes [0x32#8, 0x01#8, 0x06#8, 0x07#8]) ∧
    callEnding 0x02#8 (pending Config.ack) = .result .noTarget ∧
    callEnding 0x02#8 (pending (Config.ack ++ [0x00#8])) = .raised .malformedPreamble ∧
    contains ([] : Bytes) Config.ack = false ∧
    (30#16).toNat ≤ 20 + (params none false).pollIntervalMs ∧ 19 + (params none false).pollIntervalMs < (30#16).toNat := by
  decide

theorem witness_ExpiredStepEffect :
    (running 4#3 .expired [] []).phase = .expired ∧ ({ running 4#3 .expired [] [] with stop := true }).stop = true ∧
    (running 4#3 .expired [] []).stop = false ∧ (running 4#3 .expired [] []).att > 0 ∧
    (params (some 0) false).maxRetries = some 0 ∧ (params (some 1) false).maxRetries = some 1 ∧
    (running 4#3 .expired [] []).att ≤ 1 ∧ (params none false).maxRetries = none := by decide

theorem witness_BackoffStepEffect :
    (running 4#3 .backoff [] []).phase = .backoff ∧ base.phase = .idle := by decide

theorem witness_OnlyAMissingAcknowledgementIsRetried :
    contains ((running 4#3 .poll [] Config.ack).acc ++ (running 4#3 .poll [] Config.ack).rxq) Config.ack = true ∧
    (blockStep (params none false) (running 4#3 .flush [] [])).phase = .write ∧
    (blockStep (params none false) (running 4#3 .backoff [] [])).phase = .write ∧
    (blockStep (params none false) (running 4#3 .expired [] [])).phase = .backoff ∧
    (blockStep (params none false) { running 4#3 .poll [] [] with timer := 20 }).phase = .expired := by decide

theorem witness_StopIsSampledOnlyAtExpiry :
    (running 4#3 .poll [] []).phase ≠ .expired ∧ nextOf (exec .ackFrame base) = some { base with rxq := Config.ack } := by
  decide

theorem witness_StepRunsTheDecodedInstruction :
    ({ base with sched := [.hostWrite 4 1] }).sched = .hostWrite 4 1 :: [] ∧ 1 % 2 = 1 ∧
    decoded (.op 3#3) = some .decode ∧ decoded (.wire requestFrame) = some (.infoFrame 2 [0xD4#8, 0x02#8] [0x00#8]) ∧
    decoded (.payload (0xD4#8 :: 0x02#8 :: [])) = some (.firmwareVersionReq []) ∧
    decoded (.payload (0xD5#8 :: 0x03#8 :: [])) = some (.firmwareVersionRsp []) := by decide

theorem witness_StepRunsTheBlock :
    base.sched = [] ∧ ({ base with sched := [.block] }).sched = .block :: [] := by decide

theorem witness_PlacedRowRunsNext : decodeTableWord 16 0xD515 = some (.samConfigurationRsp []) := by decide

theorem witness_ReservedStartChangesNothing :
    ({ base with sched := [.hostWrite 4 1] }).sched = .hostWrite 4 1 :: [] ∧ base.op = 0#3 ∧
    ({ base with op := 7#3 }).op = 7#3 ∧ 2 % 2 = 0 := by decide

theorem witness_ResetAbandonsTheOperation :
    ({ running 5#3 .poll [] [] with sched := [.reset [0x5A#8]] }).sched = .reset [0x5A#8] :: [] := by decide

theorem witness_HostWritesSetOperands :
    ({ base with sched := [.hostWrite 0 3] }).sched = .hostWrite 0 3 :: [] ∧
    ({ base with sched := [.hostStop true] }).sched = .hostStop true :: [] ∧
    base.busy = false ∧ 0 < 65536 ∧ 65535 < 65536 := by decide

theorem witness_HostBufferAccesses :
    (0 + 2 ≤ (withIbuf [0x01#8, 0x02#8]).ibuf.length) ∧ (0 + 1 ≤ ({ base with obuf := [0x01#8] }).obuf.length) ∧
    (2 + 1 > (withIbuf [0x01#8, 0x02#8]).ibuf.length) ∧ (1 + 1 > ({ base with obuf := [0x01#8] }).obuf.length) ∧
    ((withIbuf [0x01#8, 0x02#8]).busy = false ∧ 1 + [0x09#8].length ≤ (withIbuf [0x01#8, 0x02#8]).ibuf.length) ∧
    (running 5#3 .poll [] []).busy = true ∧
    ({ base with sched := [.hostSetIbuf [0x01#8]] }).sched = .hostSetIbuf [0x01#8] :: [] ∧
    ({ base with sched := [.hostPatchIbuf 0 []] }).sched = .hostPatchIbuf 0 [] :: [] := by decide

theorem witness_RunningOperationKeepsItsOperands :
    let s : State := { running 5#3 .poll [] [] with sched := [.hostWrite 1 0x40] }
    s.busy = true ∧ step s = .next (running 5#3 .poll [] []) ∧ ∀ rxq, s.sched.head? ≠ some (.reset rxq) :=
  ⟨rfl, rfl, by simp⟩

theorem witness_OperationsWriteOnlyTheirOwnState :
    Instr.checksum ∈ [Instr.checksum, .encode, .decode, .sendAwaitAck, .call, .init] ∧
    Instr.checksum ≠ .init ∧ Instr.checksum ≠ .sendAwaitAck ∧ Instr.checksum ≠ .call ∧
    ∃ t, exec .checksum base = .next t := ⟨by decide, by decide, by decide, by decide, _, rfl⟩

theorem witness_DeviceBytesArriveUnchanged :
    ({ base with sched := [.device requestFrame] }).sched = .device requestFrame :: [] := by decide

theorem witness_HistoryOnlyGrows :
    let s : State := { base with op := 6#3, sched := [.hostWrite 4 1] }
    (∃ t, step s = .next t) ∧ ∀ rxq, s.sched.head? ≠ some (.reset rxq) := ⟨⟨_, rfl⟩, by simp⟩

theorem witness_InitedIsSetByInitOnly :
    (∃ t, step { base with inited := true } = .next t) ∧
    (∃ t, step { base with op := 6#3, sched := [.hostWrite 4 1] } = .next t ∧ t.inited = true) :=
  ⟨⟨_, rfl⟩, _, rfl, rfl⟩

theorem witness_OnlyBadHostAccessesStop :
    step { base with sched := [.hostWrite 9 0] } = .fault .noSuchRegister ∧
    step { base with sched := [.hostPatchIbuf 0 [0x01#8]] } = .fault .bufferRange := ⟨rfl, rfl⟩

/-- The start of a `SEND_AWAIT_ACK` with an empty frame meets the invariant. -/
theorem running_flush_inv (p : Params) : Inv p (running 4#3 .flush [] []) := by
  constructor <;> simp [running, base, Phase.attempting, Config.opSendAwaitAck, Config.opCall]

theorem witness_EveryStepKeepsTheInvariant :
    Inv Config.params { running 4#3 .flush [] [] with sched := [.device []] } ∧
    step { running 4#3 .flush [] [] with sched := [.device []] } = .next (running 4#3 .flush [] []) := by
  refine ⟨?_, rfl⟩
  constructor <;> simp [running, base, Phase.attempting, Config.opSendAwaitAck, Config.opCall]

theorem params_admissible (m : Option Nat) (c : Bool) : (params m c).Admissible := by
  show 1 ≤ 10
  omega

theorem witness_HandshakeHistoryShape :
    (params none false).Admissible ∧ (running 4#3 .flush [] []).phase = .flush ∧ [(Config.ack, false)] ≠ ([] : List Env) :=
  ⟨params_admissible _ _, rfl, by simp⟩

/-- The endings of a handshake are reached: an acknowledgement in the first window, a timeout by `STOP`. -/
theorem witness_HandshakeHistoryShape_endings :
    (envRun (params none false) (running 4#3 .flush [] []) [([], false), ([], false), (Config.ack, false)]).phase =
      .idle ∧
    (envRun (params (some 0) false) { running 4#3 .flush [] [] with ackTimeoutMs := 10#16 }
      [([], false), ([], false), ([], false), ([], false)]).err = some .handshakeTimeout := by decide

theorem witness_EarlierBytesAreInvisible :
    (running 4#3 .flush [] [0x5A#8]).phase = .flush ∧ [([], false)] ≠ ([] : List Env) := ⟨rfl, by simp⟩

/-- A silent device, and one that sends all but the last byte of an acknowledgement, over several steps. -/
theorem witness_SilentHandshakeNeverEnds :
    let s := running 4#3 .flush [] Config.ack
    let es : List Env := [([], false), ([0x00#8, 0x00#8, 0xFF#8], false), ([0x00#8, 0xFF#8], false), ([], false)]
    (params none false).maxRetries = none ∧ s.busy = true ∧ (∀ e ∈ es, e.2 = false) ∧
    (∀ k, k < 5 → 1 ≤ k → k ≤ es.length → contains (envRun (params none false) s (es.take k)).acc Config.ack = false) ∧
    contains ((if s.phase = .flush then [] else s.acc ++ s.rxq) ++ (es.map (·.1)).flatten) Config.ack = false ∧
    contains (([] : Bytes) ++ ((List.replicate 7 (([], false) : Env)).map (·.1)).flatten) Config.ack = false := by decide

theorem witness_SilentHandshakeNeverEnds_invariant : Inv (params none false) (running 4#3 .flush [] Config.ack) := by
  constructor <;> simp [running, base, Phase.attempting, Config.opSendAwaitAck, Config.opCall]

theorem witness_BoundedHandshakeEnds :
    (params (some 3) false).Admissible ∧ (params (some 3) false).maxRetries = some 3 ∧
    Inv (params (some 3) false) (running 4#3 .flush [] []) ∧ (running 4#3 .flush [] []).busy = true :=
  ⟨params_admissible _ _, rfl, running_flush_inv _, rfl⟩

theorem witness_HeldStopEndsWithinTheWindow :
    (params none false).Admissible ∧ (running 4#3 .poll [] []).phase = .poll := ⟨params_admissible _ _, rfl⟩

theorem witness_AcknowledgedCallDeliversItsResponse :
    let s := running 5#3 .poll [] (Config.ack ++ buildFrame [0xD5#8, 0x03#8])
    s.phase = .poll ∧ s.opl = 5#3 ∧ 1 ≤ 1 ∧ s.cmd ≠ 0xFF#8 ∧ ([] : Bytes).length ≤ 253 ∧
    contains (buildFrame (0xD5#8 :: (s.cmd + 1) :: [])) Config.ack = false ∧
    s.acc ++ s.rxq = (List.replicate 1 Config.ack).flatten ++ buildFrame (0xD5#8 :: (s.cmd + 1) :: []) ∧
    (running 5#3 .poll Config.ack Config.ack).acc ++ (running 5#3 .poll Config.ack Config.ack).rxq =
      (List.replicate 2 Config.ack).flatten := by decide

theorem witness_ParametersFlattenInOrder :
    flattenParams [.int 258] = .ok [0x02#8] ∧ flattenParams [.seq [.int (-1)], .int 7] = .ok [0xFF#8, 0x07#8] :=
  ⟨rfl, rfl⟩

theorem witness_ConsumerOutcomes :
    (List.replicate 16 0x00#8).length = 16 ∧ (List.replicate 15 0x00#8).length ≠ 16 ∧
    (List.replicate 17 0x00#8).length ≠ 16 ∧ (0x02#8 : Byte) ≠ 0x01#8 ∧ (0x00#8 : Byte) ≠ 0x01#8 ∧ (0x08#8).toNat > 7 ∧
    ((0x07#8).toNat ≤ 7 ∧ (0x07#8).toNat ≤ (List.replicate 7 0x00#8).length) ∧ ((0x00#8).toNat ≤ 7 ∧ (0x00#8).toNat ≤ 0) ∧
    (0x14#8 : Byte) ≠ 0x00#8 ∧ (List.replicate 16 0x00#8).length ≥ 16 ∧ CardOp.getFirmwareVersion.turn ≠ none ∧
    (CardOp.discoverTarget 0x01#8 ≠ .getFirmwareVersion ∧ CardOp.discoverTarget 0x01#8 ≠ .configureReader ∧
      (CardOp.discoverTarget 0x01#8).turn ≠ none) ∧
    ((.result (.bytes []) : Ending) ≠ .result .ackSentinel ∧
      ((CardOp.discoverTarget 0x01#8).outcome (.result (.bytes []))).channel = none) := by decide

/-- An initialize with both registers written, from a busy state. -/
theorem witness_ConsumerOutcomes_initialize :
    let o : InitOptions := { ackTimeoutMs := some 30#16, retryIntervalMs := some 50#16, checkVersion := true, configure := true }
    let s : State := { running 5#3 .poll [] [] with sched := initializeTurns [0x5A#8] o }
    s.sched = initializeTurns [0x5A#8] o ++ [] ∧ (initializeTurns [0x5A#8] o).length = 5 := by decide

/-! ## The consumer layer, against 95_test_vectors.md -/

/-- V-S9: a rejected authentication is `false` and no error. -/
theorem test_authenticate_rejected :
    (CardOp.authenticateBlock ⟨[0x01#8, 0x02#8, 0x03#8, 0x04#8], by decide⟩ 4 0x61#8
      #v[0xFF#8, 0xFF#8, 0xFF#8, 0xFF#8, 0xFF#8, 0xFF#8]).outcome (.result (.bytes [0x01#8])) = .flag false := by decide

/-- P5: the line of an authentication. -/
theorem test_authenticate_line :
    (CardOp.authenticateBlock ⟨[0x01#8, 0x02#8, 0x03#8, 0x04#8], by decide⟩ 4 0x61#8
      #v[0xFF#8, 0xFF#8, 0xFF#8, 0xFF#8, 0xFF#8, 0xFF#8]).turn =
    some (.hostCall 0x40#8 [0x01#8, 0x61#8, 0x04#8, 0xFF#8, 0xFF#8, 0xFF#8, 0xFF#8, 0xFF#8, 0xFF#8, 0x01#8, 0x02#8, 0x03#8,
      0x04#8]) := by decide

/-- P2: the UID of a discovered card. -/
theorem test_discovered_uid :
    (CardOp.discoverTarget 0x00#8).outcome (.result (.bytes [0x01#8, 0x01#8, 0x00#8, 0x04#8, 0x08#8, 0x04#8, 0x01#8, 0x02#8,
      0x03#8, 0x04#8])) = .uid ⟨[0x01#8, 0x02#8, 0x03#8, 0x04#8], by decide⟩ := by decide

end Sys2Proof.Tests
end

/-! The obligations of 00_scope.md: the endings are read back (R15), the host's buffer accesses (R12), and what
can stop the machine (R14). -/

namespace Sys2Proof.Machine

/-! How an ending is read back (R15, R42 to R45) -/

/-- The flags and `OBUF` tell the ending: each result kind and each error is told apart from every other. -/
@[simp] theorem endWith_ending (e : Ending) (s : State) : (endWith e s).ending = some e := by
  cases e with
  | result r => cases r <;> rfl
  | raised k => rfl

theorem endWith_wentWrong (e : Ending) (s : State) : (endWith e s).wentWrong ↔ ∃ k, e = .raised k := by
  obtain ⟨-, -, -, herr⟩ := endWith_flags e s
  rw [State.wentWrong, Option.ne_none_iff_exists']
  exact exists_congr herr

/-- Settles O44: the ending is read back from the flags, and an ended operation leaves the block idle. -/
theorem endingsAreReadBack : Obligations.EndingsAreReadBack := by
  intro e s
  obtain ⟨o, r, k, hend⟩ := endWith_frame e s
  exact ⟨endWith_ending e s, endWith_wentWrong e s, by rw [hend], by rw [hend]⟩

/-! Buffer accesses (R12) -/

/-- A read inside the buffer gives its `n` bytes from the offset on. -/
theorem memRead_inside {buf : Bytes} {off n : Nat} (h : off + n ≤ buf.length) :
    ∃ r, memRead buf off n = some r ∧ r.length = n ∧ ∀ k, k < n → r[k]? = buf[off + k]? := by
  refine ⟨(buf.drop off).take n, if_pos h, by simp; omega, fun k hk => ?_⟩
  rw [List.getElem?_take_of_lt hk, List.getElem?_drop]

theorem memRead_outside {buf : Bytes} {off n : Nat} (h : off + n > buf.length) : memRead buf off n = none :=
  if_neg (by omega)

/-- A write inside the buffer replaces the bytes at the offset and keeps the length and every other byte. -/
theorem memWrite_inside {buf : Bytes} {off : Nat} {v : Bytes} (h : off + v.length ≤ buf.length) :
    ∃ buf', memWrite buf off v = some buf' ∧ buf'.length = buf.length ∧
      (∀ k, k < v.length → buf'[off + k]? = v[k]?) ∧
      ∀ k, k < off ∨ off + v.length ≤ k → buf'[k]? = buf[k]? := by
  have hoff : (buf.take off).length = off := by simp; omega
  refine ⟨buf.take off ++ v ++ buf.drop (off + v.length), if_pos h, by simp; omega, fun k hk => ?_, fun k hk => ?_⟩
  · rw [List.append_assoc, List.getElem?_append_right (by omega), hoff, Nat.add_sub_cancel_left,
      List.getElem?_append_left hk]
  · rcases hk with hk | hk
    · rw [List.append_assoc, List.getElem?_append_left (by omega), List.getElem?_take_of_lt hk]
    · have hlen : (buf.take off ++ v).length = off + v.length := by rw [List.length_append, hoff]
      rw [List.getElem?_append_right (by omega), hlen, List.getElem?_drop, Nat.add_sub_cancel' hk]

theorem memWrite_outside {buf : Bytes} {off : Nat} {v : Bytes} (h : off + v.length > buf.length) :
    memWrite buf off v = none := if_neg (by omega)

/-! Every instruction answers a next state (R14) -/

theorem callLine_next (c : Byte) (ps : Bytes) (s : State) : ∃ t, callLine c ps s = .next t := by
  cases hb : s.busy with
  | true => exact ⟨s, callLine_busy hb⟩
  | false => exact ⟨_, callLine_idle hb⟩

/-- An operation answers through `startIf`, a request through its `CALL` line, and the rest are the device's rows. -/
theorem exec_next (i : Instr) (s : State) : ∃ t, exec i s = .next t := by
  cases hi : startsOperation i with
  | false =>
    obtain ⟨d, hd⟩ := exec_device hi
    exact ⟨_, hd s⟩
  | true =>
    cases i with
    | checksum | encode | decode | sendAwaitAck | call | init => exact ⟨_, rfl⟩
    | firmwareVersionReq ps | samConfigurationReq ps | listPassiveTargetReq ps | dataExchangeReq ps =>
      exact callLine_next _ ps s
    | infoFrame | ackFrame | firmwareVersionRsp | samConfigurationRsp | listPassiveTargetRsp | dataExchangeRsp =>
      cases hi

theorem start_next (s : State) : ∃ t, start s = .next t := by
  unfold start
  split
  · exact exec_next _ s
  · exact ⟨s, rfl⟩

/-- A START while an operation runs changes nothing (R36). -/
theorem start_busy {s : State} (hb : s.busy = true) : start s = .next s := by
  obtain ⟨t, ht⟩ := start_next s
  rcases start_cases ht with rfl | ⟨hidle, -⟩
  · exact ht
  · rw [hb] at hidle
    cases hidle

/-! The host's writes, by `BUSY` and by bounds (R12, R36) -/

theorem setIbuf_busy {bytes : Bytes} {s : State} (hb : s.busy = true) : setIbuf bytes s = s := if_pos hb

theorem setIbuf_idle {bytes : Bytes} {s : State} (hb : s.busy = false) : setIbuf bytes s = { s with ibuf := bytes } :=
  if_neg (by simp [hb])

theorem hostPatch_busy {off : Nat} {bytes : Bytes} {s : State} (hb : s.busy = true) :
    hostPatch off bytes s = .next s := if_pos hb

/-- An idle patch inside `IBUF` is the buffer write. -/
theorem hostPatch_of_memWrite {off : Nat} {bytes buf : Bytes} {s : State} (hb : s.busy = false)
    (h : memWrite s.ibuf off bytes = some buf) : hostPatch off bytes s = .next { s with ibuf := buf } := by
  simp [hostPatch, hb, h]

/-- An idle patch that reaches past the end of `IBUF` faults (log 15). -/
theorem hostPatch_outside {off : Nat} {bytes : Bytes} {s : State} (hb : s.busy = false)
    (h : off + bytes.length > s.ibuf.length) : hostPatch off bytes s = .fault .bufferRange := by
  simp [hostPatch, hb, memWrite_outside h]

theorem writeOperand_busy {reg value : Nat} {s : State} (hb : s.busy = true) : writeOperand reg value s = s :=
  if_pos hb

/-- A write to an existing register, `CTRL` among them, answers a next state. -/
theorem hostWriteReg_next {reg : Nat} (hreg : reg ≤ 8) (value : Nat) (s : State) :
    ∃ t, hostWriteReg reg value s = .next t := by
  rw [hostWriteReg, if_pos hreg]
  split
  · split
    · exact start_next s
    · exact ⟨s, rfl⟩
  · exact ⟨_, rfl⟩

/-- While an operation runs a register write, START included, changes nothing (R36). -/
theorem hostWriteReg_busy {reg : Nat} (hreg : reg ≤ 8) (value : Nat) {s : State} (hb : s.busy = true) :
    hostWriteReg reg value s = .next s := by
  simp only [hostWriteReg, start_busy hb, writeOperand_busy hb, if_pos hreg, ite_self]

/-- A write to a register number above 8 faults (log 15). -/
theorem hostWriteReg_outside {reg : Nat} (hreg : reg > 8) (value : Nat) (s : State) :
    hostWriteReg reg value s = .fault .noSuchRegister := by
  rw [hostWriteReg, if_neg (by omega), if_neg (by omega)]

/-- Settles O42, from what a buffer read, a buffer write and each host write do. -/
theorem hostBufferAccesses : Obligations.HostBufferAccesses := by
  refine ⟨fun s off n => ⟨memRead_inside, memRead_inside, memRead_outside, memRead_outside, rfl, rfl⟩,
    fun s off v hb hin => ?_, fun s v => setIbuf_idle,
    fun s off reg value v hb => ⟨setIbuf_busy hb, hostPatch_busy hb, fun hreg => hostWriteReg_busy hreg value hb⟩,
    fun s v rest hs => step_cons hs, fun s off v rest hs => step_cons hs⟩
  obtain ⟨buf, hw, hframe⟩ := memWrite_inside hin
  exact ⟨buf, hostPatch_of_memWrite hb hw, hframe⟩

/-! What can stop the machine (R14, log 15) -/

/-- A turn that is a host access to what does not exist, with the fault it raises; `s` is the state before it. -/
inductive BadHostAccess : Turn → State → Fault → Prop where
  /-- A write to a register number above 8. -/
  | register (reg value : Nat) (s : State) (hreg : reg > 8) : BadHostAccess (.hostWrite reg value) s .noSuchRegister
  /-- A patch of an idle block's `IBUF` past its end. -/
  | patch (off : Nat) (bytes : Bytes) (s : State) (hb : s.busy = false) (hlen : off + bytes.length > s.ibuf.length) :
      BadHostAccess (.hostPatchIbuf off bytes) s .bufferRange

/-- A turn answers a next state, or faults as a bad host access. -/
theorem applyTurn_next_or_fault (p : Params) (turn : Turn) (s : State) :
    (∃ t, applyTurn p turn s = .next t) ∨ ∃ f, applyTurn p turn s = .fault f ∧ BadHostAccess turn s f := by
  cases turn with
  | block | hostSetIbuf | hostStop | reset => exact .inl ⟨_, rfl⟩
  | hostWrite reg value =>
    by_cases hreg : reg ≤ 8
    · exact .inl (hostWriteReg_next hreg value s)
    · have hreg : reg > 8 := by omega
      exact .inr ⟨_, hostWriteReg_outside hreg value s, .register reg value s hreg⟩
  | hostPatchIbuf off bytes =>
    cases hb : s.busy with
    | true => exact .inl ⟨s, hostPatch_busy hb⟩
    | false =>
      by_cases hlen : off + bytes.length ≤ s.ibuf.length
      · obtain ⟨buf, hw, -⟩ := memWrite_inside hlen
        exact .inl ⟨_, hostPatch_of_memWrite hb hw⟩
      · have hlen : off + bytes.length > s.ibuf.length := by omega
        exact .inr ⟨_, hostPatch_outside hb hlen, .patch off bytes s hb hlen⟩
  | hostCall code params =>
    obtain ⟨t, ht⟩ := callLine_next code params s
    exact .inl ⟨t, (hostCallLine_eq code params s).trans ht⟩
  | device raw =>
    obtain ⟨d, hd⟩ := deviceLine_next raw s
    exact .inl ⟨_, hd⟩
  | deviceRespond code results => exact .inl ⟨_, deviceRespondLine_eq code results s⟩

/-- A step answers a next state, or faults because its turn is a bad host access. -/
theorem step_next_or_fault (s : State) :
    (∃ t, step s = .next t) ∨
    ∃ f turn rest, step s = .fault f ∧ s.sched = turn :: rest ∧ BadHostAccess turn { s with sched := rest } f := by
  cases hs : s.sched with
  | nil => exact .inl ⟨blockStep Config.params s, by rw [step, runTurn, hs]⟩
  | cons turn rest =>
    rw [step_cons hs]
    rcases applyTurn_next_or_fault Config.params turn { s with sched := rest } with hnext | ⟨f, hf, hbad⟩
    · exact .inl hnext
    · exact .inr ⟨f, turn, rest, hf, rfl, hbad⟩

theorem step_ne_refused (s : State) (r : Refusal) : step s ≠ .refused r := by
  rcases step_next_or_fault s with ⟨t, ht⟩ | ⟨f, turn, rest, hf, -, -⟩
  · simp [ht]
  · simp [hf]

theorem step_fault_badHostAccess {s : State} {f : Fault} (h : step s = .fault f) :
    ∃ turn rest, s.sched = turn :: rest ∧ BadHostAccess turn { s with sched := rest } f := by
  rcases step_next_or_fault s with ⟨t, ht⟩ | ⟨g, turn, rest, hg, hs, hbad⟩
  · rw [ht] at h
    cases h
  · rw [hg] at h
    cases h
    exact ⟨turn, rest, hs, hbad⟩

/-- Settles O50: a step that stops is one of the two bad host accesses, and both stop with a fault. -/
theorem onlyBadHostAccessesStop : Obligations.OnlyBadHostAccessesStop := by
  refine ⟨exec_next, step_ne_refused, fun s f h => ?_⟩
  obtain ⟨turn, rest, hs, hbad⟩ := step_fault_badHostAccess h
  cases hbad with
  | register reg value _ hreg => exact .inl ⟨rfl, reg, value, rest, hs, hreg⟩
  | patch off bytes _ hb hlen => exact .inr ⟨rfl, hb, off, bytes, rest, hs, hlen⟩

end Sys2Proof.Machine

/-! The state and who may write it (10_state.md R30 to R51, R60): the schedule of turns, the host's registers, reset,
and what operations and steps leave alone. -/

namespace Sys2Proof.Machine

/-! A step runs the turn that is next (R30, R36, R123, log 2) -/

theorem step_nil {s : State} (h : s.sched = []) : step s = .next (blockStep Config.params s) := by
  rw [step, runTurn, h]

theorem start_of_decode {s : State} {i : Instr} (h : decode (.op s.op) = .ok i) : start s = exec i s := by
  rw [start, h]

theorem hostWriteReg_ctrl {v : Nat} (hv : v % 2 = 1) (s : State) : hostWriteReg 4 v s = start s := if_pos hv

theorem deviceLine_of_decode {raw : Bytes} {i : Instr} (h : decode (.wire raw) = .ok i) (s : State) :
    deviceLine raw s = exec i s := by
  rw [deviceLine, h]

theorem hostCallLine_of_decode {code : Byte} {ps : Bytes} {i : Instr}
    (h : decode (.payload (payloadBytes Config.tagH2D code ps)) = .ok i) (s : State) :
    hostCallLine code ps s = exec i s := by
  rw [hostCallLine, h]

theorem deviceRespondLine_of_decode {code : Byte} {r : Bytes} {i : Instr}
    (h : decode (.payload (payloadBytes Config.tagD2H code r)) = .ok i) (s : State) :
    deviceRespondLine code r s = exec i s := by
  rw [deviceRespondLine, h]

/-- Settles O34: the turn taken off the schedule runs what its word decodes to. -/
theorem stepRunsTheDecodedInstruction : Obligations.StepRunsTheDecodedInstruction := by
  refine fun s rest i => ⟨fun v hs hv hi => ?_, fun raw hs hi => ?_, fun code ps hs hi => ?_, fun code r hs hi => ?_⟩ <;>
    rw [step_cons hs]
  · exact (hostWriteReg_ctrl hv _).trans (start_of_decode hi)
  · exact deviceLine_of_decode hi _
  · exact hostCallLine_of_decode hi _
  · exact deviceRespondLine_of_decode hi _

/-- Settles O35: an empty schedule and a block turn both leave the block its own step. -/
theorem stepRunsTheBlock : Obligations.StepRunsTheBlock :=
  ⟨fun _ => step_nil, fun _ _ => step_cons, Nat.le_add_left 1 _⟩

/-! The host's registers (R32 to R36, R42 to R47) -/

/-- A write to an existing register other than `CTRL` is a write of an operand. -/
theorem hostWriteReg_eq_writeOperand {reg : Nat} (h4 : reg ≠ 4) (h8 : reg ≤ 8) (v : Nat) (s : State) :
    hostWriteReg reg v s = .next (writeOperand reg v s) := by
  rw [hostWriteReg, if_neg h4, if_pos h8]

/-- A write of `ILEN` while idle gives `IBUF` the length written. -/
theorem writeOperand_ilen {s : State} (hb : s.busy = false) {v : Nat} (hv : v < 65536) :
    writeOperand 7 v s = setIlen v s := by
  simp [writeOperand, hb, Nat.mod_eq_of_lt hv]

/-- `IBUF` of length `n`: its front, and free bytes where it becomes longer (log 8). -/
theorem setIlen_eq (n : Nat) (s : State) :
    ∃ fill, setIlen n s = { s with ibuf := s.ibuf.take n ++ fill, freeCount := s.freeCount + fill.length } ∧
      (s.ibuf.take n ++ fill).length = n := by
  refine ⟨freeBytes s.freeCount (n - s.ibuf.length), by simp [setIlen, freeBytes_length], ?_⟩
  rw [List.length_append, List.length_take, freeBytes_length]
  omega

/-- Settles O40: each register write while idle, by its number, and the two host turns as steps. -/
theorem hostWritesSetOperands : Obligations.HostWritesSetOperands := by
  refine ⟨fun s reg v rest hs => step_cons hs, fun s level rest hs => step_cons hs, fun s v hb => ?_⟩
  refine ⟨?_, ?_, ?_, ?_, ?_, ?_, ?_, fun hv => ?_⟩
  on_goal 8 =>
    obtain ⟨fill, hfill, hlen⟩ := setIlen_eq v s
    exact ⟨fill, by rw [hostWriteReg_eq_writeOperand (by decide) (by decide), writeOperand_ilen hb hv, hfill], hlen⟩
  all_goals
    rw [hostWriteReg_eq_writeOperand (by decide) (by decide)]
    simp [writeOperand, hb, trunc8]

/-- The number a concatenation of fields stands for: the high field shifted past the low one. -/
theorem toNat_append_field {m n : Nat} (hi : BitVec m) (lo : BitVec n) :
    (hi ++ lo).toNat = 2 ^ n * hi.toNat + lo.toNat := by
  rw [BitVec.toNat_append, ← Nat.shiftLeft_add_eq_or_of_lt lo.isLt, Nat.shiftLeft_eq, Nat.mul_comm]

/-- `STATUS` as a number, by its four fields. -/
theorem status_toNat (s : State) :
    s.status.toNat = 16 * (errCode s.err).toNat + 4 * s.rkind.code.toNat + 2 * s.done.toNat + s.busy.toNat := by
  simp only [State.status, toNat_append_field, BitVec.toNat_ofBool]
  omega

/-- Settles O41: every register reads the field it names, and `STATUS` its four fields. -/
theorem hostReadsRegisters : Obligations.HostReadsRegisters :=
  fun s => ⟨rfl, rfl, rfl, rfl, rfl, congrArg some (status_toNat s), rfl, rfl, rfl⟩

/-- Settles O38: the fields of the reset state are the table's, by definition. -/
theorem resetLeavesTheTableValues : Obligations.ResetLeavesTheTableValues :=
  ⟨rfl, rfl, rfl, rfl, rfl, rfl, rfl, rfl, rfl, rfl, rfl, rfl, rfl, rfl, rfl, rfl, rfl, rfl, rfl⟩

/-! What an operation leaves alone (R36, R51) -/

/-- Settles O26: the six operations and the four request rows are STARTs, which a busy block ignores. -/
theorem startWhileBusyChangesNothing : Obligations.StartWhileBusyChangesNothing :=
  fun _ _ hb i hi => exec_busy (List.all_eq_true.mp rfl i hi) hb

/-- What the START of the operation `i` leaves alone, from the state before it to the state after it (R51). -/
def LeavesAlone (i : Instr) (s t : State) : Prop :=
  t.ibuf = s.ibuf ∧ t.op = s.op ∧ t.cmd = s.cmd ∧ t.ackTimeoutMs = s.ackTimeoutMs ∧
    t.retryIntervalMs = s.retryIntervalMs ∧ t.acc = s.acc ∧ t.timer = s.timer ∧ t.att = s.att ∧ t.rxq = s.rxq ∧
    (i ≠ .init → t.hist = s.hist ∧ t.inited = s.inited) ∧ (i ≠ .sendAwaitAck → i ≠ .call → t.txf = s.txf)

/-- An operation that ends in its START writes flags, `OPL` and `OBUF` only. -/
theorem endWith_accept_leavesAlone (i : Instr) (e : Ending) (select : BitVec 3) (s : State) :
    LeavesAlone i s (endWith e (accept select s)) := by
  obtain ⟨o, r, k, hend⟩ := endWith_frame e (accept select s)
  simp [LeavesAlone, hend]

theorem startCall_leavesAlone (s : State) : LeavesAlone .call s (startCall (accept Config.opCall s)) := by
  rcases startCall_cases (accept Config.opCall s) with ⟨-, heq⟩ | ⟨-, heq⟩ <;> simp [LeavesAlone, heq]

/-- A START of one of the six operations, accepted or not. -/
theorem operation_leavesAlone {i : Instr} (hi : i ∈ [Instr.checksum, .encode, .decode, .sendAwaitAck, .call, .init])
    {s t : State} (h : exec i s = .next t) : LeavesAlone i s t := by
  cases hb : s.busy with
  | true =>
    rw [exec_busy (List.all_eq_true.mp rfl i hi) hb] at h
    cases h
    simp [LeavesAlone]
  | false =>
    simp only [List.mem_cons, List.not_mem_nil, or_false] at hi
    rcases hi with rfl | rfl | rfl | rfl | rfl | rfl
    · rw [exec, execChecksum_idle hb] at h
      cases h
      exact endWith_accept_leavesAlone _ (.result _) _ s
    · rw [exec, execEncode_idle hb] at h
      cases h
      exact endWith_accept_leavesAlone _ _ _ s
    · rw [exec, execDecode_idle hb] at h
      cases h
      exact endWith_accept_leavesAlone _ _ _ s
    · rw [exec, execSendAwaitAck_idle hb] at h
      cases h
      simp [LeavesAlone, startSend]
    · rw [exec, execCall_idle hb] at h
      cases h
      exact startCall_leavesAlone s
    · rw [exec, execInit_idle hb] at h
      cases h
      simp [LeavesAlone, runInit]

/-- Settles O46: the frame of the block's steps, and of each operation's START. -/
theorem operationsWriteOnlyTheirOwnState : Obligations.OperationsWriteOnlyTheirOwnState := by
  refine ⟨fun p s => ?_, fun s t i hi h => operation_leavesAlone hi h⟩
  obtain ⟨hop, -, hcmd, hack, hretry, hibuf, htxf, -, hinited, -⟩ := blockStep_frame p s
  exact ⟨hibuf, hop, hcmd, hack, hretry, hinited, htxf⟩

/-! The history and `INITED` over every turn (R46, R49, R82) -/

theorem startCall_accept_frame (select : BitVec 3) (s : State) :
    (startCall (accept select s)).hist = s.hist ∧ (startCall (accept select s)).inited = s.inited := by
  rcases startCall_cases (accept select s) with ⟨-, heq⟩ | ⟨-, heq⟩ <;> simp [heq]

/-- An accepted START adds to the history, and `INIT` alone writes `INITED`. -/
theorem Started.hist_inited {select : BitVec 3} {s t : State} (h : Started select s t) :
    (∃ events, t.hist = s.hist ++ events) ∧
      (t.inited = s.inited ∨ (select = Config.opInit ∧ t.inited = true)) := by
  cases h with
  | ended e =>
    obtain ⟨o, r, k, hend⟩ := endWith_frame e (accept select s)
    simp [hend]
  | send => simp [startSend]
  | call => simp [startCall_accept_frame]
  | init hsel => exact ⟨⟨[.write Config.params.wakeup], rfl⟩, .inr ⟨hsel, rfl⟩⟩

/-- Every turn but reset adds to the history. -/
theorem Moved.hist_grows {p : Params} {turn : Turn} {s t : State} (hm : Moved p turn s t)
    (hreset : ∀ rxq, turn ≠ .reset rxq) : ∃ events, t.hist = s.hist ++ events := by
  cases hm with
  | block =>
    obtain ⟨-, -, -, -, -, -, -, -, -, -, -, hhist⟩ := blockStep_frame p s
    exact hhist
  | started _ _ _ _ _ hs => exact hs.hist_inited.1
  | called _ _ _ _ _ hs => exact hs.hist_inited.1
  | ignored | operands | stopped | arrived => exact ⟨[], by simp⟩
  | reset rxq h => exact absurd h (hreset rxq)

/-- Settles O48: the block's own step and every turn but reset add to the history. -/
theorem historyOnlyGrows : Obligations.HistoryOnlyGrows := by
  intro s t hstep hreset
  rcases step_next_cases hstep with ⟨-, rfl⟩ | ⟨turn, rest, hs, hm⟩
  · exact Moved.hist_grows (turn := .block) (.block rfl) (by simp)
  · exact hm.hist_grows (by simpa [hs] using hreset)

/-- A turn keeps `INITED`, unless it is an accepted START of `INIT`, which sets it, or reset, which clears it. -/
theorem Moved.inited_cases {p : Params} {turn : Turn} {s t : State} (hm : Moved p turn s t) :
    t.inited = s.inited ∨
    (t.inited = true ∧ s.op = Config.opInit ∧ s.busy = false ∧ ∃ v, turn = .hostWrite 4 v ∧ v % 2 = 1) ∨
    (t.inited = false ∧ ∃ rxq, turn = .reset rxq) := by
  cases hm with
  | block =>
    obtain ⟨-, -, -, -, -, -, -, -, hinited, -⟩ := blockStep_frame p s
    exact .inl hinited
  | started _ hb v hturn hv hs =>
    rcases hs.hist_inited.2 with hkeep | ⟨hop, hset⟩
    · exact .inl hkeep
    · exact .inr (.inl ⟨hset, hop, hb, v, hturn, hv⟩)
  | called _ _ _ _ _ hs =>
    rcases hs.hist_inited.2 with hkeep | ⟨hop, -⟩
    · exact .inl hkeep
    · exact absurd hop (by decide)
  | ignored | operands | stopped | arrived => exact .inl rfl
  | reset rxq h => exact .inr (.inr ⟨rfl, rxq, h⟩)

/-- The same of a step, with the turn where the schedule shows it. -/
theorem step_inited_cases {s t : State} (hstep : step s = .next t) :
    t.inited = s.inited ∨
    (t.inited = true ∧ s.op = Config.opInit ∧ s.busy = false ∧
      ∃ v rest, s.sched = .hostWrite 4 v :: rest ∧ v % 2 = 1) ∨
    (t.inited = false ∧ ∃ rxq, s.sched.head? = some (.reset rxq)) := by
  rcases step_next_cases hstep with ⟨-, rfl⟩ | ⟨turn, rest, hs, hm⟩
  · obtain ⟨-, -, -, -, -, -, -, -, hinited, -⟩ := blockStep_frame Config.params s
    exact .inl hinited
  · rcases hm.inited_cases with hkeep | ⟨hset, hop, hb, v, rfl, hv⟩ | ⟨hclear, rxq, rfl⟩
    · exact .inl hkeep
    · exact .inr (.inl ⟨hset, hop, hb, v, rest, hs, hv⟩)
    · exact .inr (.inr ⟨hclear, rxq, by rw [hs]; rfl⟩)

/-- Settles O49: a step keeps `INITED` but for the accepted `INIT` and reset. -/
theorem initedIsSetByInitOnly : Obligations.InitedIsSetByInitOnly := by
  intro s t hstep
  rcases step_inited_cases hstep with hkeep | ⟨hset, hinit⟩ | ⟨hclear, rxq, hreset⟩
  · rw [hkeep]
    exact ⟨fun h _ => h, fun hfalse htrue => Bool.noConfusion (hfalse.symm.trans htrue)⟩
  · exact ⟨fun _ _ => hset, fun _ _ => hinit⟩
  · exact ⟨fun _ hno => absurd hreset (hno rxq), fun _ htrue => Bool.noConfusion (hclear.symm.trans htrue)⟩

end Sys2Proof.Machine

/-! The invariant (10_state.md R37 to R47): it holds at reset, and every step of every agent keeps it. -/

namespace Sys2Proof.Machine

variable {p : Params} {s t : State}

/-! States in which no operation runs -/

/-- An idle block meets the invariant as soon as it shows its ending in one channel: the rest speaks of a running
operation. -/
theorem Inv.of_idle (hb : s.busy = false) (hph : s.phase = .idle)
    (hdone : s.done = true ↔ (s.err ≠ none ∨ s.rkind ≠ .none)) (hdisjoint : s.err ≠ none → s.rkind = .none)
    (herr : ∀ k, s.err = some k → k.ofBlock = true) (hobuf : s.rkind ≠ .bytes → s.obuf = []) : Inv p s where
  busy_iff := by simp [hb, hph]
  busy_clear := by simp [hb]
  done_iff := hdone
  err_no_result := hdisjoint
  err_of_block := herr
  obuf_only_bytes := hobuf
  opl_latched := by simp [hb]
  txf_send := by simp [hb]
  txf_call := by simp [hb]
  acc_no_ack := by simp [hph, Phase.attempting]
  timer_poll := by simp [hph]
  timer_expired := by simp [hph]
  att_pos := by simp [hph]
  att_bound := by simp [hph]

/-- Settles O51: at reset nothing runs and no ending is shown. -/
theorem invariantHoldsAtReset : Obligations.InvariantHoldsAtReset :=
  fun _ => .of_idle rfl rfl (by simp [State.reset]) (fun _ => rfl) (by simp [State.reset]) (fun _ => rfl)

/-- However an operation ends, in a result or in one of the block's errors, and whatever held before. -/
theorem endWith_inv {e : Ending} (he : ∀ k, e = .raised k → k.ofBlock = true) (s : State) : Inv p (endWith e s) := by
  obtain ⟨hshown, hdisjoint, hobuf, herr⟩ := endWith_flags e s
  obtain ⟨o, r, k, hend⟩ := endWith_frame e s
  have hdone : (endWith e s).done = true := by rw [hend]
  exact .of_idle (by rw [hend]) (by rw [hend]) (by simp only [hdone, hshown]) hdisjoint
    (fun k hk => he k ((herr k).mp hk)) hobuf

theorem Inv.phase_idle (h : Inv p s) (hb : s.busy = false) : s.phase = .idle := by
  simpa [hb] using h.busy_iff

/-- While the block is idle its operands are free. -/
theorem Inv.of_operands (h : Inv p s) (hb : s.busy = false) (op : BitVec 3) (cmd : Byte)
    (ackTimeoutMs retryIntervalMs : BitVec 16) (ibuf : Bytes) (freeCount : Nat) :
    Inv p { s with
      op := op, cmd := cmd, ackTimeoutMs := ackTimeoutMs, retryIntervalMs := retryIntervalMs, ibuf := ibuf,
      freeCount := freeCount } :=
  .of_idle hb (h.phase_idle hb) h.done_iff h.err_no_result h.err_of_block h.obuf_only_bytes

/-- The invariant does not speak of `STOP`, of `RXQ` or of the schedule. -/
theorem Inv.of_environment (h : Inv p s) (stop : Bool) (rxq : Bytes) (sched : List Turn) (freeCount : Nat) :
    Inv p { s with stop := stop, rxq := rxq, sched := sched, freeCount := freeCount } :=
  { h with }

/-! The block's own steps -/

theorem Inv.busy_of_phase (h : Inv p s) {ph : Phase} (hph : s.phase = ph) (hne : ph ≠ .idle) : s.busy = true :=
  h.busy_iff.mpr (hph ▸ hne)

/-- What a step of a running handshake may write: its phase, `ACC`, `TIMER`, `ATT`, and the transport's fields. -/
def Handshakes (s t : State) : Prop :=
  t = { s with
    phase := t.phase, acc := t.acc, timer := t.timer, att := t.att, rxq := t.rxq, hist := t.hist,
    waitedMs := t.waitedMs }

/-- A running handshake that goes on keeps the invariant when its new phase, `ACC`, `TIMER` and `ATT` agree. -/
theorem Inv.of_handshakes (h : Inv p s) (hb : s.busy = true) (ht : Handshakes s t) (hph : t.phase ≠ .idle)
    (hacc : t.phase.attempting = true → contains t.acc Config.ack = false)
    (hpoll : t.phase = .poll → t.timer = 0 ∨ t.timer < s.ackTimeoutMs.toNat)
    (hexpired : t.phase = .expired → s.ackTimeoutMs.toNat ≤ t.timer ∧
      (1 ≤ s.ackTimeoutMs.toNat → t.timer ≤ s.ackTimeoutMs.toNat + p.pollIntervalMs - 1) ∧
      (s.ackTimeoutMs.toNat = 0 → t.timer = p.pollIntervalMs))
    (hpos : t.phase = .poll ∨ t.phase = .expired ∨ t.phase = .backoff → 1 ≤ t.att)
    (hbound : ∀ m, p.maxRetries = some m →
      (t.phase = .write ∨ t.phase = .backoff → t.att ≤ m) ∧ (t.phase = .poll ∨ t.phase = .expired → t.att ≤ m + 1)) :
    Inv p t := by
  rw [ht]
  exact { h with
    busy_iff := by simp [hb, hph]
    acc_no_ack := hacc
    timer_poll := hpoll
    timer_expired := hexpired
    att_pos := hpos
    att_bound := hbound }

theorem flushStep_inv (h : Inv p s) (hph : s.phase = .flush) : Inv p (flushStep s) :=
  h.of_handshakes (h.busy_of_phase hph (by simp)) rfl (by simp) (by simp) (by simp) (by simp) (by simp) (by simp)

/-- The window opens at 0, and one more frame has been written than before the step. -/
theorem writeStep_inv (h : Inv p s) (hph : s.phase = .write) : Inv p (writeStep p s) := by
  have hacc : contains s.acc Config.ack = false := h.acc_no_ack (by rw [hph]; rfl)
  refine h.of_handshakes (h.busy_of_phase hph (by simp)) rfl (by simp) (fun _ => ?_) (by simp) (by simp) (by simp)
    (fun m hm => ?_)
  · rw [writeStep_acc]
    split
    · exact contains_nil_ack
    · exact hacc
  · have hatt := (h.att_bound m hm).1 (.inl hph)
    simpa using hatt

/-- A poll ends the operation, lets the window expire by less than one interval, or goes on inside it. -/
theorem pollStep_inv (h : Inv p s) (hph : s.phase = .poll) : Inv p (pollStep p s) := by
  have hb := h.busy_of_phase hph (by simp)
  have hatt := h.att_pos (.inl hph)
  have htimer := h.timer_poll hph
  have hbound := fun m hm => (h.att_bound m hm).2 (.inl hph)
  rcases pollStep_cases p s with ⟨-, e, heq, he⟩ | ⟨hacc, hexp, heq⟩ | ⟨hacc, hgo, heq⟩ <;> rw [heq]
  · exact endWith_inv (fun k hk => (he k hk).1) _
  · refine h.of_handshakes hb rfl (by simp) (by simp [hacc]) (by simp) (fun _ => ?_) (by simp [hatt])
      (by simpa using hbound)
    simp only [pollRead_timer]
    omega
  · exact h.of_handshakes hb rfl (by simp [hph]) (by simp [hacc]) (by simp [hgo]) (by simp [hph]) (by simp [hatt])
      (by simpa [hph] using hbound)

theorem expiredStep_inv (h : Inv p s) (hph : s.phase = .expired) : Inv p (expiredStep p s) := by
  have hacc := h.acc_no_ack (by rw [hph]; rfl)
  have hatt := h.att_pos (.inr (.inl hph))
  rcases expiredStep_cases p s with ⟨heq, -⟩ | ⟨heq, -, hleft⟩ <;> rw [heq]
  · exact endWith_inv (e := .raised .handshakeTimeout) (by simp [ErrorKind.ofBlock]) s
  · exact h.of_handshakes (h.busy_of_phase hph (by simp)) rfl (by simp) (by simp [hacc]) (by simp) (by simp)
      (by simp [hatt]) (by simpa using hleft)

theorem backoffStep_inv (h : Inv p s) (hph : s.phase = .backoff) : Inv p (backoffStep s) := by
  have hacc := h.acc_no_ack (by rw [hph]; rfl)
  have hbound := fun m hm => (h.att_bound m hm).1 (.inr hph)
  exact h.of_handshakes (h.busy_of_phase hph (by simp)) rfl (by simp) (by simp [hacc]) (by simp) (by simp) (by simp)
    (by simpa using hbound)

theorem blockStep_inv (h : Inv p s) : Inv p (blockStep p s) := by
  cases hph : s.phase with
  | idle => rwa [blockStep_idle hph]
  | flush => rw [blockStep_flush hph]; exact flushStep_inv h hph
  | write => rw [blockStep_write hph]; exact writeStep_inv h hph
  | poll => rw [blockStep_poll hph]; exact pollStep_inv h hph
  | expired => rw [blockStep_expired hph]; exact expiredStep_inv h hph
  | backoff => rw [blockStep_backoff hph]; exact backoffStep_inv h hph

/-! Starting an operation -/

/-- A handshake about to flush meets the invariant once its operation is latched and its frame is in `TXF`. -/
theorem accept_flush_inv {select : BitVec 3} (hop : s.op = select) {txf : Bytes}
    (hframe : (select = Config.opSendAwaitAck ∧ txf = s.ibuf) ∨
      (select = Config.opCall ∧ encodeFrame (callPayload s.cmd s.ibuf) = some txf)) :
    Inv p { accept select s with txf := txf, phase := .flush } := by
  have hne : Config.opSendAwaitAck ≠ Config.opCall := by decide
  constructor <;> simp [Phase.attempting, hop]
  case opl_latched => exact hframe.imp And.left And.left
  case txf_send =>
    rintro rfl
    simpa [hne] using hframe
  case txf_call =>
    rintro rfl
    simpa [hne.symm] using hframe

/-- Whatever was shown before, an accepted START leaves an ended operation or a handshake about to flush. -/
theorem Started.inv {select : BitVec 3} (h : Started select s t) (hop : s.op = select) : Inv p t := by
  cases h with
  | ended e he => exact endWith_inv he _
  | send hsel => exact accept_flush_inv hop (.inl ⟨hsel, rfl⟩)
  | call hsel =>
    rcases startCall_cases (accept select s) with ⟨hlen, heq⟩ | ⟨-, heq⟩ <;> rw [heq]
    · refine accept_flush_inv hop (.inr ⟨hsel, encodeFrame_of_size ?_⟩)
      simp only [accept_ibuf] at hlen
      simp [callPayload]
      omega
    · exact endWith_inv (e := .raised .invalidPayloadSize) (by simp [ErrorKind.ofBlock]) _
  | init => exact endWith_inv (e := .result (.bytes [])) (by simp) _

/-! Every turn and every step -/

theorem Moved.inv {turn : Turn} (hm : Moved p turn s t) (h : Inv p s) : Inv p t := by
  cases hm with
  | block => exact blockStep_inv h
  | ignored => exact h
  | started _ _ _ _ _ hs => exact hs.inv rfl
  | called _ _ _ _ _ hs => exact hs.inv rfl
  | operands hb o c a r i f => exact h.of_operands hb o c a r i f
  | stopped level => exact h.of_environment level s.rxq s.sched s.freeCount
  | arrived d => exact h.of_environment s.stop (s.rxq ++ d) s.sched s.freeCount
  | reset rxq => exact (invariantHoldsAtReset p).of_environment s.stop rxq s.sched s.freeCount

/-- Settles O52: the block's own step keeps the invariant, and so does every turn of the schedule. -/
theorem everyStepKeepsTheInvariant : Obligations.EveryStepKeepsTheInvariant := by
  intro s t h hstep
  rcases step_next_cases hstep with ⟨-, rfl⟩ | ⟨turn, rest, -, hm⟩
  · exact blockStep_inv h
  · exact hm.inv (h.of_environment s.stop s.rxq rest s.freeCount)

end Sys2Proof.Machine

/-! The memory and the transport (20_memory.md R70 to R87): what arrived before the flush reaches nothing but the flush
event, a running operation keeps its operands, and the device's bytes arrive as they were sent. -/

namespace Sys2Proof.Machine

/-! The block writes the history and never reads it (R49) -/

/-- The state with another history. -/
def State.withHist (s : State) (hist : List Event) : State := { s with hist := hist }

theorem endWith_withHist (e : Ending) (s : State) (hist : List Event) :
    endWith e (s.withHist hist) = (endWith e s).withHist hist := by
  cases e <;> rfl

theorem acknowledged_withHist (s : State) (hist : List Event) :
    acknowledged (s.withHist hist) = (acknowledged s).withHist hist := by
  by_cases hcall : s.opl = Config.opCall
  · rw [acknowledged_call hcall, acknowledged_call (s := s.withHist hist) hcall]
    exact endWith_withHist _ s hist
  · rw [acknowledged_send hcall, acknowledged_send (s := s.withHist hist) hcall]
    rfl

theorem pollDecide_withHist (s : State) (hist : List Event) :
    pollDecide (s.withHist hist) = (pollDecide s).withHist hist := by
  rw [pollDecide, acknowledged_withHist, pollDecide, apply_ite (State.withHist · hist),
    apply_ite (State.withHist · hist)]
  rfl

theorem expiredStep_withHist (p : Params) (s : State) (hist : List Event) :
    expiredStep p (s.withHist hist) = (expiredStep p s).withHist hist := by
  rw [expiredStep, expiredStep, apply_ite (State.withHist · hist), apply_ite (State.withHist · hist)]
  rfl

/-- A block step adds the same events to any history, and writes every other field alike. -/
theorem blockStep_withHist (p : Params) (s : State) :
    ∃ events, ∀ hist, blockStep p (s.withHist hist) = (blockStep p s).withHist (hist ++ events) := by
  have hphase (hist : List Event) : (s.withHist hist).phase = s.phase := rfl
  cases hph : s.phase with
  | idle => exact ⟨[], fun hist => by simp [blockStep_idle, hph, hphase]⟩
  | flush => exact ⟨[.flush s.rxq], fun hist => by simp only [blockStep_flush, hph, hphase]; rfl⟩
  | write => exact ⟨[.write s.txf], fun hist => by simp only [blockStep_write, hph, hphase]; rfl⟩
  | poll =>
    refine ⟨[.read s.rxq], fun hist => ?_⟩
    simp only [blockStep_poll, hph, hphase]
    exact pollDecide_withHist (pollRead p s) (hist ++ [.read s.rxq])
  | expired =>
    exact ⟨[], fun hist => by simp only [blockStep_expired, hph, hphase, expiredStep_withHist, List.append_nil]⟩
  | backoff => exact ⟨[], fun hist => by simp only [blockStep_backoff, hph, hphase, List.append_nil]; rfl⟩

/-- A whole run adds the same events to any history, and ends alike but for it. -/
theorem envRun_withHist (p : Params) (es : List Env) (s : State) :
    ∃ events, ∀ hist, envRun p (s.withHist hist) es = (envRun p s es).withHist (hist ++ events) := by
  induction es generalizing s with
  | nil => exact ⟨[], fun hist => by simp [envRun]⟩
  | cons e rest ih =>
    obtain ⟨first, hfirst⟩ := blockStep_withHist p (deviceArrives e.1 { s with stop := e.2 })
    obtain ⟨later, hlater⟩ := ih (envStep p s e)
    refine ⟨first ++ later, fun hist => ?_⟩
    calc envRun p (s.withHist hist) (e :: rest)
        = envRun p ((envStep p s e).withHist (hist ++ first)) rest := congrArg (envRun p · rest) (hfirst hist)
      _ = (envRun p s (e :: rest)).withHist (hist ++ (first ++ later)) := by
        rw [hlater, List.append_assoc]
        rfl

/-! Bytes that arrived before the flush (R83, R84) -/

theorem envStep_flush {p : Params} {s : State} (hph : s.phase = .flush) (e : Env) :
    envStep p s e = flushStep (deviceArrives e.1 { s with stop := e.2 }) := blockStep_flush hph

/-- The `FLUSH` step records what `RXQ` holds in its event and empties it: nothing else shows those bytes. -/
theorem envStep_flush_rxq {p : Params} {s : State} (hph : s.phase = .flush) (rxq : Bytes) (e : Env) :
    envStep p { s with rxq := rxq } e = (envStep p s e).withHist (s.hist ++ [.flush (rxq ++ e.1)]) := by
  rw [envStep_flush hph, envStep_flush (s := { s with rxq := rxq }) hph]
  rfl

/-- A run from `FLUSH` ends the same way whatever `RXQ` held, but for the flush event. -/
theorem envRun_flush_rxq {p : Params} {s : State} (hph : s.phase = .flush) (e : Env) (es : List Env) :
    ∃ (t : State) (events : List Event), ∀ rxq,
      envRun p { s with rxq := rxq } (e :: es) = t.withHist (s.hist ++ .flush (rxq ++ e.1) :: events) := by
  obtain ⟨events, hevents⟩ := envRun_withHist p es (envStep p s e)
  refine ⟨envRun p (envStep p s e) es, events, fun rxq => ?_⟩
  rw [envRun, envStep_flush_rxq hph, hevents, List.append_assoc]
  rfl

/-- Settles O54: the two runs end in one state with two histories, which differ in the flush event. -/
theorem earlierBytesAreInvisible : Obligations.EarlierBytesAreInvisible := by
  intro p s other es hph hne
  obtain ⟨e, rest, rfl⟩ := List.exists_cons_of_ne_nil hne
  obtain ⟨t, events, hrun⟩ := envRun_flush_rxq (p := p) hph e rest
  have hself : envRun p s (e :: rest) = t.withHist (s.hist ++ .flush (s.rxq ++ e.1) :: events) := hrun s.rxq
  simp only [hself, hrun other]
  exact ⟨rfl, s.rxq ++ e.1, other ++ e.1, events, rfl, rfl⟩

/-! The operands of a running operation (R36, R86) -/

/-- The operands, the latched operation and the frame are in `t` what they are in `s`. -/
def KeepsOperands (s t : State) : Prop :=
  t.op = s.op ∧ t.opl = s.opl ∧ t.cmd = s.cmd ∧ t.ackTimeoutMs = s.ackTimeoutMs ∧
    t.retryIntervalMs = s.retryIntervalMs ∧ t.ibuf = s.ibuf ∧ t.txf = s.txf

theorem blockStep_keepsOperands (p : Params) (s : State) : KeepsOperands s (blockStep p s) := by
  obtain ⟨hop, hopl, hcmd, hack, hretry, hibuf, htxf, -⟩ := blockStep_frame p s
  exact ⟨hop, hopl, hcmd, hack, hretry, hibuf, htxf⟩

/-- A turn that writes operands is a host access to an idle block, or reset. -/
theorem Moved.keepsOperands {p : Params} {turn : Turn} {s t : State} (hm : Moved p turn s t) (hb : s.busy = true)
    (hreset : ∀ rxq, turn ≠ .reset rxq) : KeepsOperands s t := by
  cases hm with
  | block => exact blockStep_keepsOperands p s
  | ignored | stopped | arrived => exact ⟨rfl, rfl, rfl, rfl, rfl, rfl, rfl⟩
  | started _ hidle | called _ hidle | operands hidle =>
    rw [hb] at hidle
    cases hidle
  | reset rxq h => exact absurd h (hreset rxq)

/-- Settles O45: the block's own step keeps the operands, and so does every turn but reset while `BUSY = 1`. -/
theorem runningOperationKeepsItsOperands : Obligations.RunningOperationKeepsItsOperands := by
  intro s t hb hstep hreset
  rcases step_next_cases hstep with ⟨-, rfl⟩ | ⟨turn, rest, hs, hm⟩
  · exact blockStep_keepsOperands _ s
  · exact hm.keepsOperands hb (by simpa [hs] using hreset)

/-! What the decoder reads as a frame is the frame's bytes (R100, R106, R142) -/

/-- The one length checksum of a length byte (R106). -/
theorem eq_lcs_iff {len lc : Byte} : lc = lcs len ↔ (len.toNat + lc.toNat) % 256 = 0 := by
  have hlen := len.isLt
  have hlc := lc.isLt
  rw [← BitVec.toNat_inj, lcs, neg8_toNat]
  omega

theorem checksum_toNat (d : Bytes) : (checksum d).toNat = 255 - (255 + byteSum d) % 256 := by
  simp [checksum, accumulate_toNat, Config.seed]

/-- The one byte that completes a payload to the checksum 0 (R142). -/
theorem checksum_concat_eq_zero {d : Bytes} {c : Byte} : checksum (d ++ [c]) = 0x00#8 ↔ c = checksum d := by
  have hc := c.isLt
  simp only [← BitVec.toNat_inj, checksum_toNat, byteSum_append, byteSum_cons, byteSum_nil, BitVec.toNat_ofNat]
  omega

/-- A body read as a frame shows the length byte, both checksums and all bytes after them (R153 steps 3 to 5). -/
theorem parseBody_eq_frame {k zeros : Nat} {body payload tail : Bytes}
    (h : parseBody k body = .frame zeros payload tail) :
    zeros = k ∧ payload.length ≤ 255 ∧
      body = trunc8 payload.length :: lcs (trunc8 payload.length) :: (payload ++ checksum payload :: tail) := by
  rcases parseBody_cases k body with
    ⟨-, heq⟩ | ⟨len, lc, rest, rfl, ⟨-, heq⟩ | ⟨-, -, heq⟩ | ⟨-, -, -, heq⟩ | ⟨hlc, hlen, hsum, heq⟩⟩ <;>
    rw [heq] at h <;> cases h
  have hlt : len.toNat < rest.length := hlen
  have hpayload : (rest.take len.toNat).length = len.toNat := List.length_take_of_le hlt.le
  have hbyte := len.isLt
  rw [List.take_succ_eq_append_getElem hlt, checksum_concat_eq_zero] at hsum
  have htrunc : trunc8 len.toNat = len := BitVec.ofNat_toNat 8 len
  refine ⟨rfl, by omega, ?_⟩
  rw [hpayload, htrunc, ← eq_lcs_iff.mpr hlc, ← hsum, ← List.drop_eq_getElem_cons hlt, List.take_append_drop]

theorem parseBody_ne_ack (k : Nat) (body : Bytes) : parseBody k body ≠ .ack := by
  rcases parseBody_cases k body with
    ⟨-, heq⟩ | ⟨len, lc, rest, -, ⟨-, heq⟩ | ⟨-, -, heq⟩ | ⟨-, -, -, heq⟩ | ⟨-, -, -, heq⟩⟩ <;> simp [heq]

theorem parse_eq_ack {raw : Bytes} (h : parse raw = .ack) : raw = Config.ack := by
  rcases parse_cases raw with ⟨hraw, -⟩ | ⟨-, heq⟩ | ⟨k, r, -, -, heq⟩
  · exact hraw
  · rw [heq] at h
    cases h
  · rw [heq] at h
    exact absurd h (parseBody_ne_ack _ r)

/-- Bytes read as a frame are the bytes of that frame, with at least one `00` before its `FF`. -/
theorem parse_eq_frame {raw payload tail : Bytes} {zeros : Nat} (h : parse raw = .frame zeros payload tail) :
    1 ≤ zeros ∧ payload.length ≤ 255 ∧ raw = wireFrame zeros payload tail := by
  rcases parse_cases raw with ⟨-, heq⟩ | ⟨-, heq⟩ | ⟨k, r, -, hraw, heq⟩ <;> rw [heq] at h
  · cases h
  · cases h
  · obtain ⟨rfl, hlen, rfl⟩ := parseBody_eq_frame h
    exact ⟨Nat.le_add_left 1 k, hlen, hraw⟩

/-! What the device sends arrives (R78, log 1) -/

/-- A wire word that decodes is the encoding of its instruction. -/
theorem encode_of_decodeWire {raw : Bytes} {i : Instr} (h : decodeWire raw = .ok i) : encode i = .wire raw := by
  unfold decodeWire at h
  split at h <;> cases h
  · next hack => rw [parse_eq_ack hack, encode]
  · next zeros payload tail hframe =>
    obtain ⟨-, -, hraw⟩ := parse_eq_frame hframe
    rw [hraw, encode]

/-- A row of format WIRE sends the bytes of its encoding. -/
theorem exec_of_encode_wire {i : Instr} {raw : Bytes} (h : encode i = .wire raw) (s : State) :
    exec i s = .next (deviceArrives raw s) := by
  cases i with
  | infoFrame | ackFrame =>
    cases h
    rfl
  | checksum | encode | decode | sendAwaitAck | call | init | firmwareVersionReq | firmwareVersionRsp
  | samConfigurationReq | samConfigurationRsp | listPassiveTargetReq | listPassiveTargetRsp | dataExchangeReq
  | dataExchangeRsp => cases h

/-- A `device:` line adds its own bytes, whether or not they decode. -/
theorem deviceLine_eq (raw : Bytes) (s : State) : deviceLine raw s = .next (deviceArrives raw s) := by
  unfold deviceLine
  split
  · next i hi => exact exec_of_encode_wire (encode_of_decodeWire hi) s
  · rfl

/-- Settles O47: a device turn is its `device:` line, run in the state with the turn taken off the schedule. -/
theorem deviceBytesArriveUnchanged : Obligations.DeviceBytesArriveUnchanged :=
  fun _ raw _ hs => (step_cons hs).trans (deviceLine_eq raw _)

/-- The frame's bytes as R100 prints them, for a payload whose length fits the length byte. -/
theorem wireFrame_of_length_le {payload : Bytes} (h : payload.length ≤ 255) (zeros : Nat) (tail : Bytes) :
    wireFrame zeros payload tail = List.replicate zeros 0x00#8 ++
      [0xFF#8, BitVec.ofNat 8 payload.length, BitVec.ofNat 8 (256 - payload.length)] ++ payload ++
      [checksum payload] ++ tail := by
  rw [wireFrame, lcs, neg8_trunc8 (by omega)]
  simp [trunc8, Config.preamble]

/-- A response row sends the information frame of its payload. -/
theorem respondLine_eq (code : Byte) (results : Bytes) (s : State) :
    respondLine code results s = .next { s with rxq := s.rxq ++ buildFrame ([0xD5#8, code] ++ results) } := rfl

/-- Settles O25: the two wire rows send their encodings, a response row the frame of its payload. -/
theorem deviceRowsArrive : Obligations.DeviceRowsArrive := by
  refine fun s => ⟨fun zeros payload tail hlen => ?_, exec_of_encode_wire rfl s, fun r => ?_⟩
  · rw [← wireFrame_of_length_le hlen]
    exact exec_of_encode_wire rfl s
  · exact ⟨respondLine_eq _ r s, respondLine_eq _ r s, respondLine_eq _ r s, respondLine_eq _ r s⟩

end Sys2Proof.Machine

/-! The encodings (30_encoding.md R100 to R125): the frame codec on every byte sequence, the rows of the opcode table as
words, and what a placed row, a request row and a reserved START do. -/

namespace Sys2Proof.Machine

/-! The length checksum and the encoder (R100, R106, R120) -/

/-- Settles O1: the value of the length checksum is that of `neg8`, and bytes with equal values are equal. -/
theorem lengthChecksumIsTheOneByte : Obligations.LengthChecksumIsTheOneByte := by
  refine ⟨fun _ _ => eq_lcs_iff.symm, neg8_toNat, fun len hmin hmax => ?_, by decide, by decide, by decide⟩
  rw [lcs, neg8_toNat]
  omega

theorem encodeEnding_of_size {p : Bytes} (h : 1 ≤ p.length ∧ p.length ≤ 254) :
    encodeEnding p = .result (.bytes (buildFrame p)) := by
  rw [encodeEnding, encodeFrame_of_size h]

theorem encodeEnding_of_not_size {p : Bytes} (h : p.length = 0 ∨ p.length ≥ 255) :
    encodeEnding p = .raised .invalidPayloadSize := by
  rw [encodeEnding, encodeFrame_of_not_size h]

/-- Settles O4: a payload of the sizes of R120 is refused, and any other becomes the frame of R100. -/
theorem encoderEmitsFramesOrRefuses : Obligations.EncoderEmitsFramesOrRefuses := by
  refine ⟨fun p => ⟨fun hraised => ?_, encodeEnding_of_not_size⟩, fun p hmin hmax => ?_⟩
  · by_contra hsize
    rw [encodeEnding_of_size (by omega)] at hraised
    cases hraised
  · rw [encodeEnding_of_size ⟨hmin, hmax⟩, buildFrame_eq_wireFrame, wireFrame_of_length_le (by omega)]
    simp [List.replicate, Config.postamble]

/-! The decoder up to the `FF` (R153 steps 1 and 2) -/

/-- No leading `00`, or no `FF` after the run of them. -/
theorem parse_malformed {raw : Bytes} (h : (spanZeros raw).1 = 0 ∨ (spanZeros raw).2.head? ≠ some 0xFF#8) :
    parse raw = .bad .malformedPreamble := by
  rcases parse_cases raw with ⟨rfl, -⟩ | ⟨-, heq⟩ | ⟨k, r, -, rfl, -⟩
  · exact absurd h (by decide)
  · exact heq
  · simp [spanZeros_replicate] at h

/-- A run and `FF` can begin `ACK` in one way only, so the bytes after them are known. -/
theorem body_of_run_eq_ack {k : Nat} {r : Bytes} (h : List.replicate k 0x00#8 ++ 0xFF#8 :: r = Config.ack) :
    r = [0x00#8, 0xFF#8, 0x00#8] := by
  have hspan := congrArg spanZeros h
  rw [spanZeros_replicate k _ r (by decide),
    show spanZeros Config.ack = (2, [0xFF#8, 0x00#8, 0xFF#8, 0x00#8]) from rfl] at hspan
  simp only [Prod.mk.injEq, List.cons.injEq, true_and] at hspan
  exact hspan.2

/-- After a run and `FF` that do not make up `ACK`, the decoder reads the body. -/
theorem parse_run_of_body {k : Nat} {r : Bytes} (hk : 1 ≤ k) (hr : r ≠ [0x00#8, 0xFF#8, 0x00#8]) :
    parse (List.replicate k 0x00#8 ++ 0xFF#8 :: r) = parseBody k r := by
  obtain ⟨k, rfl⟩ := Nat.exists_eq_add_of_le' hk
  exact parse_run k r fun hack => hr (body_of_run_eq_ack hack)

/-- A body whose length checksum matches is not that of `ACK`, which has `00` with `FF` (R105). -/
theorem parse_run_of_length_match {k : Nat} {len lc : Byte} (hk : 1 ≤ k) (hlc : (len.toNat + lc.toNat) % 256 = 0)
    (rest : Bytes) :
    parse (List.replicate k 0x00#8 ++ 0xFF#8 :: len :: lc :: rest) = parseBody k (len :: lc :: rest) := by
  refine parse_run_of_body hk fun hack => ?_
  injection hack with hlen hack
  injection hack with hlc'
  subst hlen hlc'
  exact absurd hlc (by decide)

/-! The body of a frame (R153 steps 3 to 5) -/

theorem parseBody_short {body : Bytes} (k : Nat) (h : body.length < 2) :
    parseBody k body = .bad .lengthChecksumMismatch := by
  rcases parseBody_cases k body with ⟨-, heq⟩ | ⟨len, lc, rest, rfl, -⟩
  · exact heq
  · simp at h

theorem parseBody_of_length_mismatch {len lc : Byte} (k : Nat) (rest : Bytes) (h : (len.toNat + lc.toNat) % 256 ≠ 0) :
    parseBody k (len :: lc :: rest) = .bad .lengthChecksumMismatch := if_pos h

theorem parseBody_truncated {len lc : Byte} {rest : Bytes} (k : Nat) (hlc : (len.toNat + lc.toNat) % 256 = 0)
    (h : rest.length < len.toNat + 1) : parseBody k (len :: lc :: rest) = .bad .payloadChecksumMismatch := by
  simp [parseBody, hlc, h]

/-- A body with all its payload bytes is a frame when the byte after them completes the checksum to 0. -/
theorem parseBody_of_payload {len lc : Byte} {payload : Bytes} (k : Nat) (hlc : (len.toNat + lc.toNat) % 256 = 0)
    (hlen : payload.length = len.toNat) (dcs : Byte) (tail : Bytes) :
    parseBody k (len :: lc :: (payload ++ dcs :: tail)) =
      if checksum (payload ++ [dcs]) = 0x00#8 then .frame k payload tail else .bad .payloadChecksumMismatch := by
  have htake : (payload ++ dcs :: tail).take (len.toNat + 1) = payload ++ [dcs] := by simp [← hlen, List.take_append]
  have hdrop : (payload ++ dcs :: tail).drop (len.toNat + 1) = tail := by simp [← hlen, List.drop_append]
  have hpayload : (payload ++ dcs :: tail).take len.toNat = payload := by simp [← hlen]
  have hfits : ¬ (payload ++ dcs :: tail).length < len.toNat + 1 := by simp; omega
  simp only [parseBody, hlc, hfits, htake, hdrop, hpayload, ne_eq, not_true, if_false, ite_not]

/-! The decoder accepts the frames (R116, R117, R154, R156) -/

/-- A frame whose payload length fits the length byte is read back in its parts, whatever follows it. -/
theorem parse_wireFrame {zeros : Nat} {payload : Bytes} (hzeros : 1 ≤ zeros) (hlen : payload.length ≤ 255)
    (tail : Bytes) : parse (wireFrame zeros payload tail) = .frame zeros payload tail := by
  have hbyte : payload.length = (trunc8 payload.length).toNat := by rw [trunc8_toNat]; omega
  have hlc := eq_lcs_iff.mp (rfl : lcs (trunc8 payload.length) = _)
  rw [wireFrame, Config.preamble, parse_run_of_length_match hzeros hlc, parseBody_of_payload zeros hlc hbyte,
    if_pos (checksum_concat_eq_zero.mpr rfl)]

/-- Settles O7: what is read as a frame is that frame, and every frame is read as itself. -/
theorem decoderAcceptsExactlyTheFrames : Obligations.DecoderAcceptsExactlyTheFrames := by
  refine fun raw zeros payload tail => ⟨fun hparse => ?_, fun ⟨hzeros, hlen, hraw⟩ => ?_⟩
  · obtain ⟨hzeros, hlen, hraw⟩ := parse_eq_frame hparse
    exact ⟨hzeros, hlen, hraw.trans (wireFrame_of_length_le hlen zeros tail)⟩
  · rw [hraw, ← wireFrame_of_length_le hlen]
    exact parse_wireFrame hzeros hlen tail

/-! The decoder's rejections (R105, R119) -/

theorem decodeEnding_of_parse_bad {raw : Bytes} {k : ErrorKind} (h : parse raw = .bad k) :
    decodeEnding raw = .raised k := by
  rw [decodeEnding, h]

theorem decodeEnding_malformed {raw : Bytes} (h : (spanZeros raw).1 = 0 ∨ (spanZeros raw).2.head? ≠ some 0xFF#8) :
    decodeEnding raw = .raised .malformedPreamble := decodeEnding_of_parse_bad (parse_malformed h)

/-- A wrong length checksum, on a sequence that is not `ACK`. -/
theorem decodeEnding_of_length_mismatch {k : Nat} {len lc : Byte} {r : Bytes} (hk : 1 ≤ k)
    (hlc : (len.toNat + lc.toNat) % 256 ≠ 0)
    (hack : List.replicate k 0x00#8 ++ 0xFF#8 :: len :: lc :: r ≠ Config.ack) :
    decodeEnding (List.replicate k 0x00#8 ++ 0xFF#8 :: len :: lc :: r) = .raised .lengthChecksumMismatch := by
  obtain ⟨k, rfl⟩ := Nat.exists_eq_add_of_le' hk
  exact decodeEnding_of_parse_bad ((parse_run k _ hack).trans (parseBody_of_length_mismatch _ r hlc))

/-- Settles O8: the first four rows by the leading run, the others by the body after the `FF`. -/
theorem decoderRejectsByTheTable : Obligations.DecoderRejectsByTheTable := by
  refine ⟨decodeEnding_malformed (.inl rfl), fun b r hb => decodeEnding_malformed (.inl (by simp [spanZeros, hb])),
    fun k => decodeEnding_malformed (.inr (by simp [spanZeros_replicate_nil])),
    fun k b r hb hff => decodeEnding_malformed (.inr (by simpa [spanZeros_replicate k b r hb] using hff)),
    fun k r hk hr => decodeEnding_of_parse_bad ?_, fun k len lc r => decodeEnding_of_length_mismatch,
    fun k len lc r hk hlc hr => decodeEnding_of_parse_bad ?_,
    fun k len lc p dcs r hk hlc hlen hsum => decodeEnding_of_parse_bad ?_⟩
  · rw [parse_run_of_body hk (by rintro rfl; simp at hr), parseBody_short k hr]
  · rw [parse_run_of_length_match hk hlc, parseBody_truncated k hlc hr]
  · rw [parse_run_of_length_match hk hlc, parseBody_of_payload k hlc hlen, if_neg hsum]

theorem decodeEnding_eq_ackSentinel {raw : Bytes} (h : decodeEnding raw = .result .ackSentinel) : raw = Config.ack := by
  unfold decodeEnding at h
  split at h
  · next hparse => exact parse_eq_ack hparse
  · cases h
  · cases h

/-- Settles O10: `ACK` with more bytes has the length `00` with the checksum `FF`. -/
theorem ackWithMoreBytesIsNoSentinel : Obligations.AckWithMoreBytesIsNoSentinel := by
  refine ⟨by rw [decodeEnding, parse_ack], fun x r => ?_, fun _ => decodeEnding_eq_ackSentinel⟩
  have hack : Config.ack ++ x :: r = List.replicate 2 0x00#8 ++ 0xFF#8 :: 0x00#8 :: 0xFF#8 :: 0x00#8 :: x :: r := rfl
  rw [hack]
  exact decodeEnding_of_length_mismatch (by decide) (by decide) (by simp [Config.ack, List.replicate])

/-! The rows of the opcode table as words (R100, R104, R113, R121) -/

theorem decode_wire_frame {raw payload tail : Bytes} {zeros : Nat} (h : parse raw = .frame zeros payload tail) :
    decode (.wire raw) = .ok (.infoFrame zeros payload tail) := by
  rw [decode, decodeWire, h]

theorem decode_wire_ack : decode (.wire Config.ack) = .ok .ackFrame := by
  rw [decode, decodeWire, parse_ack]

/-- Settles O16, by the row: a frame by the decoder, an operation or a payload by its code. -/
theorem decodeEncodeRoundTrip : Obligations.DecodeEncodeRoundTrip := by
  intro i hwf
  cases i with
  | infoFrame zeros payload tail =>
    simp only [Instr.wf, Bool.and_eq_true, decide_eq_true_eq] at hwf
    obtain ⟨hzeros, hlen⟩ := hwf
    exact decode_wire_frame (parse_wireFrame hzeros hlen tail)
  | ackFrame => exact decode_wire_ack
  | checksum | encode | decode | sendAwaitAck | call | init => rfl
  | firmwareVersionReq | samConfigurationReq | listPassiveTargetReq | dataExchangeReq => rfl
  | firmwareVersionRsp | samConfigurationRsp | listPassiveTargetRsp | dataExchangeRsp =>
    have hfits : ¬ _ > 253 := Nat.not_lt.mpr (of_decide_eq_true hwf)
    exact if_neg hfits

/-- Settles O15: the eight words are the encodings of their rows. -/
theorem payloadHeadersOfTheListedCommands : Obligations.PayloadHeadersOfTheListedCommands := fun d =>
  ⟨decodeEncodeRoundTrip (.firmwareVersionReq d) rfl, decodeEncodeRoundTrip (.samConfigurationReq d) rfl,
    decodeEncodeRoundTrip (.listPassiveTargetReq d) rfl, decodeEncodeRoundTrip (.dataExchangeReq d) rfl, fun h =>
    ⟨decodeEncodeRoundTrip (.firmwareVersionRsp d) (decide_eq_true h),
      decodeEncodeRoundTrip (.samConfigurationRsp d) (decide_eq_true h),
      decodeEncodeRoundTrip (.listPassiveTargetRsp d) (decide_eq_true h),
      decodeEncodeRoundTrip (.dataExchangeRsp d) (decide_eq_true h)⟩⟩

/-- Settles O14: each word is evaluated by the decoder. -/
theorem tableWordsDecode : Obligations.TableWordsDecode :=
  ⟨rfl, rfl, rfl, rfl, rfl, rfl, rfl, rfl, rfl, rfl, rfl, rfl⟩

/-! What decodes is the encoding of what it decodes to (R100, R104, R113, R121) -/

theorem decodeOp_sound {select : BitVec 3} {i : Instr} (h : decodeOp select = .ok i) :
    i.wf = true ∧ encode i = .op select := by
  rcases decodeOp_cases h with
    ⟨rfl, rfl⟩ | ⟨rfl, rfl⟩ | ⟨rfl, rfl⟩ | ⟨rfl, rfl⟩ | ⟨rfl, rfl⟩ | ⟨rfl, rfl⟩ <;> exact ⟨rfl, rfl⟩

theorem wf_of_decodeWire {raw : Bytes} {i : Instr} (h : decodeWire raw = .ok i) : i.wf = true := by
  unfold decodeWire at h
  split at h <;> cases h
  · rfl
  · next zeros payload tail hframe =>
    obtain ⟨hzeros, hlen, -⟩ := parse_eq_frame hframe
    simp [Instr.wf, hzeros, hlen]

theorem decodeRequest_sound {code : Byte} {params : Bytes} {i : Instr} (h : decodeRequest code params = .ok i) :
    i.wf = true ∧ encode i = .payload (payloadBytes Config.tagH2D code params) := by
  unfold decodeRequest at h
  repeat' split at h
  all_goals cases h
  all_goals
    subst code
    exact ⟨rfl, rfl⟩

theorem decodeResponse_sound {code : Byte} {results : Bytes} {i : Instr} (h : decodeResponse code results = .ok i) :
    i.wf = true ∧ encode i = .payload (payloadBytes Config.tagD2H code results) := by
  by_cases hlong : results.length > 253
  · rw [decodeResponse, if_pos hlong] at h
    cases h
  rw [decodeResponse, if_neg hlong] at h
  have hwf : decide (results.length ≤ 253) = true := decide_eq_true (Nat.not_lt.mp hlong)
  repeat' split at h
  all_goals cases h
  all_goals
    subst code
    exact ⟨hwf, rfl⟩

/-- A payload that decodes has a header: the tag of the host with a request's code, or that of the device with a
response's. -/
theorem decodePayload_cases {bytes : Bytes} {i : Instr} (h : decodePayload bytes = .ok i) :
    ∃ code rest,
      (bytes = payloadBytes Config.tagH2D code rest ∧ decodeRequest code rest = .ok i) ∨
      (bytes = payloadBytes Config.tagD2H code rest ∧ decodeResponse code rest = .ok i) := by
  match bytes with
  | [] | [_] => cases h
  | tag :: code :: rest =>
    refine ⟨code, rest, ?_⟩
    rw [decodePayload] at h
    split at h
    · next htag => exact .inl ⟨by rw [htag, payloadBytes], h⟩
    · split at h
      · next htag => exact .inr ⟨by rw [htag, payloadBytes], h⟩
      · cases h

/-- Settles O17, by the format of the word. -/
theorem encodeDecodeRoundTrip : Obligations.EncodeDecodeRoundTrip := by
  intro e i h
  cases e with
  | op select => exact decodeOp_sound h
  | wire raw => exact ⟨wf_of_decodeWire h, encode_of_decodeWire h⟩
  | payload bytes =>
    obtain ⟨code, rest, ⟨rfl, hreq⟩ | ⟨rfl, hrsp⟩⟩ := decodePayload_cases h
    · exact decodeRequest_sound hreq
    · exact decodeResponse_sound hrsp

/-! A request row starts its `CALL` (R113, R123, R202, log 1) -/

/-- The parameters fit a frame: it is built, and the handshake begins. -/
theorem callLine_starts {s : State} (hb : s.busy = false) {ps : Bytes} (h : ps.length ≤ 252) (code : Byte) :
    callLine code ps s = .next { s with
      op := 5#3, cmd := code, ibuf := ps, busy := true, done := false, err := none, rkind := .none, obuf := [],
      opl := 5#3, txf := buildFrame (0xD4#8 :: code :: ps), phase := .flush } := by
  rw [callLine_idle hb]
  rcases startCall_cases (accept Config.opCall { s with op := Config.opCall, cmd := code, ibuf := ps }) with
    ⟨-, heq⟩ | ⟨hlong, -⟩
  · rw [heq]
    rfl
  · exact absurd hlong (Nat.not_lt.mpr h)

/-- The parameters fit no frame: the operation ends before anything is sent. -/
theorem callLine_refuses {s : State} (hb : s.busy = false) {ps : Bytes} (h : ps.length > 252) (code : Byte) :
    callLine code ps s = .next { s with
      op := 5#3, cmd := code, ibuf := ps, busy := false, done := true, err := some .invalidPayloadSize, rkind := .none,
      obuf := [], opl := 5#3, phase := .idle } := by
  rw [callLine_idle hb]
  rcases startCall_cases (accept Config.opCall { s with op := Config.opCall, cmd := code, ibuf := ps }) with
    ⟨hfits, -⟩ | ⟨-, heq⟩
  · exact absurd h (Nat.not_lt.mpr hfits)
  · rw [heq]
    rfl

/-- Settles O24: a request row is the `CALL` line of its code. -/
theorem requestRowsStartTheirCall : Obligations.RequestRowsStartTheirCall :=
  fun _ _ hb =>
    ⟨fun h => ⟨callLine_starts hb h _, callLine_starts hb h _, callLine_starts hb h _, callLine_starts hb h _⟩,
      fun h => ⟨callLine_refuses hb h _, callLine_refuses hb h _, callLine_refuses hb h _, callLine_refuses hb h _⟩⟩

/-! A placed row and a reserved START (R36, R121, R125, log 9, log 10, log 15) -/

theorem decode_of_firstDecoded {words : List Encoded} {e : Encoded} {i : Instr}
    (h : firstDecoded words = some (e, i)) : decode e = .ok i := by
  induction words with
  | nil => cases h
  | cons w rest ih =>
    rw [firstDecoded] at h
    split at h
    · next hw =>
      cases h
      exact hw
    · exact ih h

/-- The word that `placeNext` places is run by the next step. -/
theorem step_placeNext {e : Encoded} {i : Instr} (h : decode e = .ok i) (s : State) :
    step (placeNext e s) = exec i { placeNext e s with sched := s.sched } := by
  obtain ⟨hop, hwire, hcall, hrespond⟩ := stepRunsTheDecodedInstruction (placeNext e s) s.sched i
  cases e with
  | op select => exact hop 1 rfl rfl h
  | wire raw => exact hwire raw rfl h
  | payload bytes =>
    obtain ⟨code, rest, ⟨rfl, -⟩ | ⟨rfl, -⟩⟩ := decodePayload_cases h
    · exact hcall code rest rfl h
    · exact hrespond code rest rfl h

/-- Settles O36: the word placed is the reading of the row that decodes. -/
theorem placedRowRunsNext : Obligations.PlacedRowRunsNext := by
  intro s nbits w i h
  obtain ⟨⟨e, _⟩, hrow, rfl⟩ := Option.map_eq_some_iff.mp h
  rw [State.withFetchWord, placeRow, hrow]
  exact step_placeNext (decode_of_firstDecoded hrow) s

theorem start_reserved {s : State} (h : s.op = 0#3 ∨ s.op = 7#3) : start s = .next s := by
  rcases h with h | h <;> rw [start, h] <;> rfl

theorem hostWriteReg_ctrl_no_start {v : Nat} (hv : v % 2 = 0) (s : State) : hostWriteReg 4 v s = .next s := by
  rw [hostWriteReg, if_pos rfl, if_neg (by omega)]

/-- Settles O37: a START finds no operation, and a write of `CTRL` without START looks for none. -/
theorem reservedStartChangesNothing : Obligations.ReservedStartChangesNothing := by
  intro s rest v hs h
  rw [step_cons hs, applyTurn]
  rcases Nat.mod_two_eq_zero_or_one v with hv | hv
  · exact hostWriteReg_ctrl_no_start hv _
  · rw [hostWriteReg_ctrl hv]
    exact start_reserved (by simpa [hv] using h)

end Sys2Proof.Machine

/-! The checksum (40_checksum.md R140 to R143): it is the negated byte sum, and the byte that completes a sequence to the
checksum 0 is one only. -/

namespace Sys2Proof.Machine

theorem checksum_eq_neg8_byteSum (d : Bytes) : checksum d = neg8 (trunc8 (byteSum d)) := by
  apply BitVec.eq_of_toNat_eq
  rw [checksum_toNat, neg8_toNat, trunc8_toNat]
  omega

theorem checksum_eq_zero_iff {d : Bytes} : checksum d = 0x00#8 ↔ byteSum d % 256 = 0 := by
  rw [← BitVec.toNat_inj, checksum_toNat, BitVec.toNat_ofNat]
  omega

theorem byteSum_eq_sum_toNat (d : Bytes) : byteSum d = (d.map BitVec.toNat).sum := by
  induction d with
  | nil => rfl
  | cons b rest ih => rw [byteSum_cons, List.map_cons, List.sum_cons, ih]

theorem byteSum_perm {d e : Bytes} (h : d.Perm e) : byteSum d = byteSum e := by
  rw [byteSum_eq_sum_toNat, byteSum_eq_sum_toNat]
  exact (h.map BitVec.toNat).sum_eq

/-- Settles O2: the checksum is a function of the byte sum, which is that of every permutation and adds over `++`. -/
theorem checksumClosedForm : Obligations.ChecksumClosedForm := by
  refine ⟨checksum_eq_neg8_byteSum, fun d => ?_, fun d e hperm => ?_, fun d e => ?_⟩
  · rw [checksum_eq_neg8_byteSum, neg8_toNat, trunc8_toNat]
  · rw [checksum_eq_neg8_byteSum, checksum_eq_neg8_byteSum, byteSum_perm hperm]
  · rw [checksum_eq_neg8_byteSum, byteSum_append]

/-- Settles O3: the checksum is 0 when the byte sum is, and the appended byte adds its value to that sum. -/
theorem checksumValidatesItsOwnByteOnly : Obligations.ChecksumValidatesItsOwnByteOnly := by
  refine fun p c => ⟨?_, checksum_concat_eq_zero⟩
  rw [checksum_eq_zero_iff, byteSum_append, byteSum_cons, byteSum_nil, Nat.add_zero]

/-- Settles O18: the accumulation is the fold, and an accepted `CHECKSUM` finishes in its own step. -/
theorem checksumCompletes : Obligations.ChecksumCompletes := by
  intro s hidle
  rw [exec, execChecksum_idle hidle, checksum, accumulate_eq_foldl]
  rfl

end Sys2Proof.Machine

/-! The frame codec (41_framecodec.md R150 to R155): the decoder is the printed index walk, a frame decodes to its payload,
and what `ENCODE` and `DECODE` do while idle. -/

namespace Sys2Proof.Machine

/-! How the decoder ends (R152) -/

/-- How `DECODE` ends on a parsed sequence. -/
def Parsed.ending : Parsed → Ending
  | .ack => .result .ackSentinel
  | .frame _ payload _ => .result (.bytes payload)
  | .bad k => .raised k

theorem decodeEnding_eq_ending_parse (raw : Bytes) : decodeEnding raw = (parse raw).ending := by
  unfold decodeEnding
  cases parse raw <;> rfl

theorem decodeEnding_ne_noTarget (raw : Bytes) : decodeEnding raw ≠ .result .noTarget := by
  rw [decodeEnding_eq_ending_parse]
  cases parse raw <;> simp [Parsed.ending]

/-! The index walk (R153) -/

/-- The index stops at the end of the leading run, from any start inside it. -/
theorem walkZeros_run {k : Nat} {rest : Bytes} (hrest : rest.head? ≠ some 0x00#8) :
    ∀ fuel i, i ≤ k → k ≤ i + fuel → walkZeros (List.replicate k 0x00#8 ++ rest) fuel i = k := by
  intro fuel
  induction fuel with
  | zero => exact fun i hle hge => Nat.le_antisymm hle hge
  | succ fuel ih =>
    intro i hle hge
    rw [walkZeros]
    rcases Nat.lt_or_eq_of_le hle with hlt | rfl
    · rw [if_pos ⟨by simp; omega, by simp [List.getElem?_append_left, hlt]⟩]
      exact ih (i + 1) hlt (by omega)
    · exact if_neg fun h => hrest (by simpa [List.getElem?_append, List.head?_eq_getElem?] using h.2)

/-- The walk of a body reads what the list recursion reads, whatever stands before the body. -/
theorem walkBody_append (pre body : Bytes) (k : Nat) :
    walkBody (pre ++ body) pre.length = (parseBody k body).ending := by
  match body with
  | [] | [_] => simp [walkBody, parseBody, Parsed.ending]
  | len :: lc :: rest =>
    have hlen : (pre ++ len :: lc :: rest).getD pre.length 0x00#8 = len := by simp
    have hlc : (pre ++ len :: lc :: rest).getD (pre.length + 1) 0x00#8 = lc := by simp
    have hdrop : (pre ++ len :: lc :: rest).drop (pre.length + 2) = rest := by simp [List.drop_append]
    have hhead : ¬ pre.length + 2 > (pre ++ len :: lc :: rest).length := by simp
    have hfits : pre.length + 2 + len.toNat + 1 > (pre ++ len :: lc :: rest).length ↔
        rest.length < len.toNat + 1 := by
      simp
      omega
    simp only [walkBody, parseBody, hlen, hlc, hdrop, hhead, hfits, if_false]
    split_ifs <;> rfl

/-- No leading `00`: the walk does not begin. -/
theorem decodeWalk_of_no_run {raw : Bytes} (h : raw.head? ≠ some 0x00#8) :
    decodeWalk raw = .raised .malformedPreamble := by
  have hack : raw ≠ Config.ack := by
    rintro rfl
    exact h rfl
  rw [decodeWalk, if_neg hack, ← List.head?_eq_getElem?, if_pos h, ite_self]

/-- The walk past a leading run of `00`, on a sequence that is not `ACK`. -/
theorem decodeWalk_run {k : Nat} {rest : Bytes} (hrest : rest.head? ≠ some 0x00#8)
    (hack : List.replicate (k + 1) 0x00#8 ++ rest ≠ Config.ack) :
    decodeWalk (List.replicate (k + 1) 0x00#8 ++ rest) =
      if rest.head? = some 0xFF#8 then walkBody (List.replicate (k + 1) 0x00#8 ++ rest) (k + 2)
      else .raised .malformedPreamble := by
  have hwalk := walkZeros_run (k := k + 1) hrest (List.replicate (k + 1) 0x00#8 ++ rest).length 1 (by omega)
    (by simp; omega)
  rw [decodeWalk, if_neg hack, if_neg (by simp), if_neg (by simp [List.replicate_succ]), hwalk]
  cases rest <;> simp

/-- A sequence is its leading run of `00` and a rest that does not begin with `00`. -/
theorem spanZeros_parts {raw rest : Bytes} {k : Nat} (h : spanZeros raw = (k, rest)) :
    raw = List.replicate k 0x00#8 ++ rest ∧ rest.head? ≠ some 0x00#8 := by
  obtain ⟨hraw, hrest⟩ := spanZeros_spec raw
  rw [h] at hraw hrest
  refine ⟨hraw, fun hzero => ?_⟩
  obtain ⟨r, hr⟩ := List.head?_eq_some_iff.mp hzero
  exact hrest _ r hr rfl

/-- Settles O9, by what follows the leading run of `00`: without a run or an `FF` both are malformed, and after an `FF` both
read the body alike. -/
theorem decoderIsTheIndexWalk : Obligations.DecoderIsTheIndexWalk := by
  intro raw
  by_cases hack : raw = Config.ack
  · rw [hack, decodeEnding, parse_ack, decodeWalk, if_pos rfl]
  rcases hspan : spanZeros raw with ⟨k, rest⟩
  obtain ⟨hraw, hrest⟩ := spanZeros_parts hspan
  cases k with
  | zero =>
    rw [decodeEnding_malformed (.inl (by rw [hspan])), hraw]
    exact (decodeWalk_of_no_run hrest).symm
  | succ k =>
    by_cases hff : rest.head? = some 0xFF#8
    · obtain ⟨body, rfl⟩ := List.head?_eq_some_iff.mp hff
      subst hraw
      have hbody := walkBody_append (List.replicate (k + 1) 0x00#8 ++ [0xFF#8]) body (k + 1)
      rw [decodeEnding_eq_ending_parse, parse_run k body hack, decodeWalk_run hrest hack, if_pos hff, ← hbody]
      simp
    · rw [decodeEnding_malformed (.inr (by rwa [hspan])), hraw, decodeWalk_run hrest (hraw ▸ hack), if_neg hff]

/-! Encoded frames (R100, R151, R155) -/

/-- Settles O6: an encoded frame is a frame of two leading `00` bytes, which the decoder reads as itself. -/
theorem decodeOfEncodeIsThePayload : Obligations.DecodeOfEncodeIsThePayload := by
  refine fun p hmin hmax => ⟨buildFrame p, encodeFrame_of_size ⟨hmin, hmax⟩, ?_⟩
  rw [buildFrame_eq_wireFrame, decodeEnding_eq_ending_parse, parse_wireFrame (by decide) (by omega)]
  rfl

/-- The bytes of an encoded frame, in order (R100). -/
theorem buildFrame_eq_cons (p : Bytes) :
    buildFrame p = 0x00#8 :: 0x00#8 :: 0xFF#8 :: trunc8 p.length :: lcs (trunc8 p.length) ::
      (p ++ [checksum p, 0x00#8]) := rfl

@[simp] theorem buildFrame_length (p : Bytes) : (buildFrame p).length = p.length + 7 := by
  simp [buildFrame_eq_cons]

theorem buildFrame_getD_after_payload (p : Bytes) (d : Byte) :
    (buildFrame p).getD (5 + p.length) d = checksum p ∧ (buildFrame p).getD (6 + p.length) d = 0x00#8 := by
  simp [buildFrame_eq_cons, Nat.add_comm _ p.length]

/-- `ACK` has the length byte `00`, which no encoded frame has. -/
theorem not_ack_prefix_buildFrame {p : Bytes} (hmin : 1 ≤ p.length) (hmax : p.length ≤ 254) :
    ¬ Config.ack <+: buildFrame p := by
  intro hprefix
  simp only [buildFrame_eq_cons, Config.ack, List.cons_prefix_cons] at hprefix
  obtain ⟨-, -, -, hlen, -⟩ := hprefix
  have hzero := congrArg BitVec.toNat hlen
  rw [trunc8_toNat, BitVec.toNat_ofNat] at hzero
  omega

/-- The payload and its checksum sum to 0 modulo 256 (R142). -/
theorem byteSum_add_checksum (p : Bytes) : (byteSum p + (checksum p).toNat) % 256 = 0 := by
  rw [checksum_toNat]
  omega

/-- Settles O5: each byte of the frame is read at its index, and the `ACK` clauses are one. -/
theorem encodedFrameFacts : Obligations.EncodedFrameFacts := by
  intro p f hf
  obtain ⟨⟨hmin, hmax⟩, rfl⟩ := encodeFrame_eq_some.mp hf
  have hack := not_ack_prefix_buildFrame hmin hmax
  have hlen : ((buildFrame p).getD 3 0).toNat = p.length := (trunc8_toNat _).trans (Nat.mod_eq_of_lt (by omega))
  have hlcs : (((buildFrame p).getD 3 0).toNat + ((buildFrame p).getD 4 0).toNat) % 256 = 0 := eq_lcs_iff.mp rfl
  have hpayload : ((buildFrame p).drop 5).take p.length = p := List.take_left
  have hdcs : (byteSum p + ((buildFrame p).getD (5 + p.length) 0).toNat) % 256 = 0 := by
    rw [(buildFrame_getD_after_payload p 0).1]
    exact byteSum_add_checksum p
  exact ⟨hmin, hmax, buildFrame_length p, rfl, hlen, hlcs, hpayload, hdcs, (buildFrame_getD_after_payload p 1).2,
    fun heq => hack (heq ▸ List.prefix_rfl), hack⟩

/-! `ENCODE` and `DECODE` while idle (R150, R152, R252) -/

/-- Settles O19: `ENCODE` ends in its own step, as the encoder says of `IBUF`. -/
theorem encodeCompletes : Obligations.EncodeCompletes := by
  obtain ⟨hrefused, hframe⟩ := encoderEmitsFramesOrRefuses
  refine fun s hidle => ⟨fun hmin hmax => ?_, fun hsize => ?_⟩
  · rw [exec, execEncode_idle hidle, hframe s.ibuf hmin hmax]
    rfl
  · rw [exec, execEncode_idle hidle, (hrefused s.ibuf).mpr hsize]
    rfl

theorem exec_decode_of_walk {s : State} (hidle : s.busy = false) {e : Ending} (hwalk : decodeWalk s.ibuf = e) :
    exec .decode s = .next (endWith e (accept Config.opDecode s)) := by
  rw [exec, execDecode_idle hidle, decoderIsTheIndexWalk, hwalk]

/-- Settles O20: `DECODE` ends in its own step, as the index walk says of `IBUF`. -/
theorem decodeCompletes : Obligations.DecodeCompletes := by
  refine fun s hidle => ⟨exec_decode_of_walk hidle, fun _ => exec_decode_of_walk hidle,
    fun _ => exec_decode_of_walk hidle, ?_⟩
  rw [← decoderIsTheIndexWalk]
  exact decodeEnding_ne_noTarget s.ibuf

end Sys2Proof.Machine

/-! The acknowledgement handshake (42_ackhandshake.md R171 to R186): the detector and `strip`, what each step of the
block does, and whole handshakes against every device. -/

namespace Sys2Proof.Machine

/-! The detector (R175) -/

theorem contains_iff_infix {b t : Bytes} : contains b t = true ↔ t <:+: b := by
  induction b with
  | nil => simp [contains]
  | cons x r ih => rw [contains_cons, List.infix_cons_iff, ih]

/-- A sequence without `ACK` has no part with `ACK`. -/
theorem contains_ack_of_infix {a b : Bytes} (hab : a <:+: b) (hb : contains b Config.ack = false) :
    contains a Config.ack = false := by
  rw [← Bool.not_eq_true, contains_iff_infix] at hb ⊢
  exact fun ha => hb (ha.trans hab)

theorem contains_ack_iff (b : Bytes) :
    contains b Config.ack = true ↔ ∃ u v, b = u ++ [0x00#8, 0x00#8, 0xFF#8, 0x00#8, 0xFF#8, 0x00#8] ++ v := by
  rw [contains_iff_infix]
  exact exists_congr fun _ => exists_congr fun _ => eq_comm

/-- A `POLL` goes idle exactly when it has an acknowledgement. -/
theorem pollStep_phase_idle {p : Params} {s : State} (hph : s.phase = .poll) :
    (pollStep p s).phase = .idle ↔ contains (s.acc ++ s.rxq) Config.ack = true := by
  rcases pollStep_cases p s with ⟨hack, e, heq, -⟩ | ⟨hack, -, heq⟩ | ⟨hack, -, heq⟩
  · obtain ⟨o, r, k, hend⟩ := endWith_frame e (pollRead p s)
    simp [heq, hend, hack]
  · simp [heq, hack]
  · simp [heq, hack, hph]

/-- Settles O11: the search is for a contiguous part, and its outcome alone sends a `POLL` to `IDLE`. -/
theorem detectorFindsAckAtAnyOffset : Obligations.DetectorFindsAckAtAnyOffset := by
  refine ⟨contains_ack_iff, fun p s hph => ?_⟩
  rw [blockStep_poll hph, pollStep_phase_idle hph, contains_ack_iff]

/-! `strip` (R176, R185, R299) -/

theorem strip_ack_append (b : Bytes) : strip (Config.ack ++ b) = strip b := strip_cons_of_ack (List.prefix_append _ _)

theorem contains_ack_append (b : Bytes) : contains (Config.ack ++ b) Config.ack = true :=
  contains_iff_infix.mpr (List.prefix_append _ _).isInfix

/-- `strip` takes off six bytes for each acknowledgement it finds, and it finds one exactly when there is one. -/
theorem length_eq_strip_length (b : Bytes) :
    ∃ n, b.length = (strip b).length + 6 * n ∧ (n = 0 ↔ contains b Config.ack = false) := by
  induction hlen : b.length using Nat.strong_induction_on generalizing b with
  | _ len ih =>
    match b with
    | [] => exact ⟨0, by simpa using hlen.symm, by simp⟩
    | x :: r =>
      by_cases hack : Config.ack <+: x :: r
      · obtain ⟨rest, hrest⟩ := hack
        have hsix : len = rest.length + 6 := by rw [← hlen, ← hrest, List.length_append]; exact Nat.add_comm _ _
        obtain ⟨n, hn, -⟩ := ih rest.length (by omega) rest rfl
        rw [← hrest, strip_ack_append, contains_ack_append]
        exact ⟨n + 1, by omega, by simp⟩
      · obtain ⟨n, hn, hzero⟩ := ih r.length (by simp [← hlen]) r rfl
        refine ⟨n, by rw [← hlen, strip_cons_of_not hack, List.length_cons, List.length_cons, hn]; omega, ?_⟩
        rw [hzero, ← Bool.not_eq_true, ← Bool.not_eq_true, contains_cons]
        simp [hack]

theorem strip_of_no_ack {b : Bytes} (h : contains b Config.ack = false) : strip b = b := by
  induction b with
  | nil => rfl
  | cons x r ih =>
    obtain ⟨hhead, htail⟩ := not_or.mp (fun hor => Bool.eq_false_iff.mp h ((contains_cons x r _).mpr hor))
    rw [strip_cons_of_not hhead, ih (Bool.eq_false_iff.mpr htail)]

theorem strip_eq_self_iff (b : Bytes) : strip b = b ↔ contains b Config.ack = false := by
  refine ⟨fun hself => ?_, strip_of_no_ack⟩
  obtain ⟨n, hlen, hzero⟩ := length_eq_strip_length b
  rw [hself] at hlen
  exact hzero.mp (by omega)

theorem pending_of_strip_ne_nil {b : Bytes} (h : strip b ≠ []) : pending b = strip b := if_neg h

theorem pending_of_strip_nil {b : Bytes} (h : strip b = []) : pending b = Config.ack := if_pos h

theorem pending_ne_nil (b : Bytes) : pending b ≠ [] := by
  by_cases h : strip b = []
  · rw [pending_of_strip_nil h]
    decide
  · rwa [pending_of_strip_ne_nil h]

/-- Settles O12: what `strip` does at an acknowledgement and at any other byte, and what is left to be pending. -/
theorem stripRemovesAcknowledgements : Obligations.StripRemovesAcknowledgements :=
  ⟨strip_ack_append, fun _ _ => strip_cons_of_not, strip_eq_self_iff, length_eq_strip_length,
    fun b => ⟨pending_of_strip_ne_nil, pending_of_strip_nil, pending_ne_nil b⟩⟩

/-! Each step of a handshake (R172 to R179) -/

/-- Settles O21: the accepted START loads `IBUF` into `TXF`. -/
theorem sendAwaitAckStarts : Obligations.SendAwaitAckStarts := fun _ => execSendAwaitAck_idle

/-- Settles O27: a block step in `FLUSH` is `flushStep`. -/
theorem flushStepEffect : Obligations.FlushStepEffect := fun _ _ => blockStep_flush

/-- Settles O28: a block step in `WRITE` is `writeStep`, which looks at the parameter for `ACC` alone. -/
theorem writeStepEffect : Obligations.WriteStepEffect := by
  refine fun p s hph => ⟨fun hkeep => ?_, fun hclear => ?_⟩ <;> rw [blockStep_write hph, writeStep]
  · rw [hkeep]
    rfl
  · rw [hclear]
    rfl

theorem checkResponse_ne_ackSentinel (cmd : Byte) (d : Bytes) : checkResponse cmd d ≠ .result .ackSentinel := by
  match d with
  | [] | [_] => simp [checkResponse]
  | tag :: code :: r =>
    rw [checkResponse]
    split_ifs <;> simp

/-- No `CALL` ends with the sentinel as `DECODE` does (R204). -/
theorem callEnding_ne_ackSentinel (cmd : Byte) (pend : Bytes) : callEnding cmd pend ≠ .result .ackSentinel := by
  unfold callEnding
  split
  · simp
  · simp
  · exact checkResponse_ne_ackSentinel cmd _

/-- Whatever it decides, a `POLL` has read all of `RXQ` and keeps the count of attempts. -/
theorem pollStep_frame (p : Params) (s : State) :
    (pollStep p s).acc = s.acc ++ s.rxq ∧ (pollStep p s).rxq = [] ∧ (pollStep p s).att = s.att ∧
      (pollStep p s).hist = s.hist ++ [.read s.rxq] := by
  rcases pollStep_cases p s with ⟨-, e, heq, -⟩ | ⟨-, -, heq⟩ | ⟨-, -, heq⟩ <;> rw [heq]
  · obtain ⟨o, r, k, hend⟩ := endWith_frame e (pollRead p s)
    simp [hend]
  · exact ⟨rfl, rfl, rfl, rfl⟩
  · exact ⟨rfl, rfl, rfl, rfl⟩

/-- A `POLL` of a `CALL` that has an acknowledgement. -/
theorem pollStep_call {p : Params} {s : State} (hack : contains (s.acc ++ s.rxq) Config.ack = true)
    (hopl : s.opl = Config.opCall) :
    pollStep p s = endWith (callEnding s.cmd (pending (s.acc ++ s.rxq))) (pollRead p s) :=
  (pollStep_ack hack).trans (acknowledged_call (s := pollRead p s) hopl)

/-- A `POLL` of a `SEND_AWAIT_ACK` that has an acknowledgement. -/
theorem pollStep_send {p : Params} {s : State} (hack : contains (s.acc ++ s.rxq) Config.ack = true)
    (hopl : s.opl ≠ Config.opCall) :
    pollStep p s = finish (.bytes (pending (s.acc ++ s.rxq))) (pollRead p s) :=
  (pollStep_ack hack).trans (acknowledged_send (s := pollRead p s) hopl)

/-- A `POLL` without acknowledgement at or past the end of the window. -/
theorem pollStep_expires {p : Params} {s : State} (hack : contains (s.acc ++ s.rxq) Config.ack = false)
    (htimer : s.ackTimeoutMs.toNat ≤ s.timer + p.pollIntervalMs) :
    pollStep p s = { pollRead p s with phase := .expired } := by
  simp [pollStep, pollDecide, hack, htimer]

/-- A `POLL` without acknowledgement inside the window. -/
theorem pollStep_goes_on {p : Params} {s : State} (hack : contains (s.acc ++ s.rxq) Config.ack = false)
    (htimer : s.timer + p.pollIntervalMs < s.ackTimeoutMs.toNat) : pollStep p s = pollRead p s := by
  simp [pollStep, pollDecide, hack, htimer]

/-- Settles O29: one equation of `pollStep` for each outcome, by the operation, the ending and the window. -/
theorem pollStepEffect : Obligations.PollStepEffect := by
  intro p s hph t
  rw [blockStep_poll hph]
  refine ⟨fun hack hopl => pollStep_send hack (by rw [hopl]; decide), fun hack hopl => ?_, pollStep_expires,
    pollStep_goes_on⟩
  have hcall := pollStep_call (p := p) hack hopl
  refine ⟨fun r hr => ?_, fun hr => ?_, fun k hk => ?_, callEnding_ne_ackSentinel _ _⟩
  · rw [hcall, hr]
    rfl
  · rw [hcall, hr]
    rfl
  · rw [hcall, hk]
    rfl

theorem expiredStep_stop {p : Params} {s : State} (hstop : s.stop = true) :
    expiredStep p s = raise .handshakeTimeout s := if_pos hstop

/-- With `STOP` low, `EXPIRED` looks at the retry bound. -/
theorem expiredStep_no_stop {p : Params} {s : State} (hstop : s.stop = false) :
    expiredStep p s = if retriesUsedUp p s.att then raise .handshakeTimeout s else { s with phase := .backoff } :=
  if_neg (by simp [hstop])

/-- Settles O30: `STOP` first, then the retry bound. -/
theorem expiredStepEffect : Obligations.ExpiredStepEffect := by
  intro p s hph timedOut
  rw [blockStep_expired hph]
  refine ⟨expiredStep_stop, fun m hstop hm hatt => ?_, fun m hstop hm hatt => ?_, fun hstop hm => ?_⟩ <;>
    rw [expiredStep_no_stop hstop]
  · exact if_pos (by simpa [retriesUsedUp, hm] using hatt)
  · exact if_neg (by simpa [retriesUsedUp, hm] using hatt)
  · exact if_neg (by simp [retriesUsedUp, hm])

/-- Settles O31: a block step in `BACKOFF` is `backoffStep`, and there is none in `IDLE`. -/
theorem backoffStepEffect : Obligations.BackoffStepEffect := ⟨fun _ _ => blockStep_backoff, fun _ _ => blockStep_idle⟩

/-! Which phase follows which (R172 to R179, R186) -/

/-- The phases that follow one another in a block step; `ack` says whether `ACC` with the bytes that wait holds an
acknowledgement. -/
inductive PhaseStep (ack : Bool) : Phase → Phase → Prop where
  | idle : PhaseStep ack .idle .idle
  | flush : PhaseStep ack .flush .write
  | write : PhaseStep ack .write .poll
  | acknowledged (h : ack = true) : PhaseStep ack .poll .idle
  | expire (h : ack = false) : PhaseStep ack .poll .expired
  | pollAgain (h : ack = false) : PhaseStep ack .poll .poll
  | timeout : PhaseStep ack .expired .idle
  | retry : PhaseStep ack .expired .backoff
  | backoff : PhaseStep ack .backoff .write

theorem blockStep_phaseStep (p : Params) (s : State) :
    PhaseStep (contains (s.acc ++ s.rxq) Config.ack) s.phase (blockStep p s).phase := by
  cases hph : s.phase with
  | idle => simpa [blockStep_idle hph, hph] using .idle
  | flush => simpa [blockStep_flush hph] using .flush
  | write => simpa [blockStep_write hph] using .write
  | poll =>
    rw [blockStep_poll hph]
    rcases pollStep_cases p s with ⟨hack, -⟩ | ⟨hack, -, heq⟩ | ⟨hack, -, heq⟩
    · rw [(pollStep_phase_idle hph).mpr hack]
      exact .acknowledged hack
    · rw [heq]
      exact .expire hack
    · rw [heq, pollRead_phase, hph]
      exact .pollAgain hack
  | expired =>
    rw [blockStep_expired hph]
    rcases expiredStep_cases p s with ⟨heq, -⟩ | ⟨heq, -⟩ <;> rw [heq]
    · exact .timeout
    · exact .retry
  | backoff => simpa [blockStep_backoff hph] using .backoff

/-- A `POLL` that has an acknowledgement ends the operation and writes no frame, whatever the response holds. -/
theorem pollStep_ack_ends {p : Params} {s : State} (hack : contains (s.acc ++ s.rxq) Config.ack = true) :
    (pollStep p s).phase = .idle ∧ (pollStep p s).busy = false ∧ (pollStep p s).hist = s.hist ++ [.read s.rxq] := by
  obtain ⟨-, -, -, hhist⟩ := pollStep_frame p s
  obtain ⟨e, he, -⟩ := acknowledged_eq (pollRead p s)
  obtain ⟨o, r, k, hend⟩ := endWith_frame e (pollRead p s)
  refine ⟨?_, ?_, hhist⟩ <;> rw [pollStep_ack hack, he, hend]

/-- Settles O32: the phases before a write, a backoff and an expiry are read off `PhaseStep`. -/
theorem onlyAMissingAcknowledgementIsRetried : Obligations.OnlyAMissingAcknowledgementIsRetried := by
  refine ⟨fun p s hph hack => by rw [blockStep_poll hph]; exact pollStep_ack_ends hack, fun p s hne hnext => ?_,
    fun p s hnext hne => ?_, fun p s hnext hne => ?_⟩ <;>
    have hstep := blockStep_phaseStep p s <;>
    rw [hnext] at hstep <;>
    generalize s.phase = ph at hne hstep ⊢
  · cases hstep with
    | flush => exact .inl rfl
    | backoff => exact .inr rfl
  · cases hstep with
    | retry => rfl
  · cases hstep with
    | expire hack => exact ⟨rfl, hack⟩

/-! `STOP` is sampled in `EXPIRED` alone (R178) -/

/-- The state with another level of `STOP`. -/
def State.withStop (s : State) (level : Bool) : State := { s with stop := level }

theorem endWith_withStop (e : Ending) (s : State) (level : Bool) :
    endWith e (s.withStop level) = (endWith e s).withStop level := by
  cases e <;> rfl

theorem acknowledged_withStop (s : State) (level : Bool) :
    acknowledged (s.withStop level) = (acknowledged s).withStop level := by
  by_cases hcall : s.opl = Config.opCall
  · rw [acknowledged_call hcall, acknowledged_call (s := s.withStop level) hcall]
    exact endWith_withStop _ s level
  · rw [acknowledged_send hcall, acknowledged_send (s := s.withStop level) hcall]
    rfl

theorem pollDecide_withStop (s : State) (level : Bool) :
    pollDecide (s.withStop level) = (pollDecide s).withStop level := by
  rw [pollDecide, acknowledged_withStop, pollDecide, apply_ite (State.withStop · level),
    apply_ite (State.withStop · level)]
  rfl

theorem blockStep_withStop {p : Params} {s : State} (hne : s.phase ≠ .expired) (level : Bool) :
    blockStep p (s.withStop level) = (blockStep p s).withStop level := by
  have hphase : (s.withStop level).phase = s.phase := rfl
  cases hph : s.phase with
  | idle => rw [blockStep_idle hph, blockStep_idle (hphase.trans hph)]
  | flush =>
    rw [blockStep_flush hph, blockStep_flush (hphase.trans hph)]
    rfl
  | write =>
    rw [blockStep_write hph, blockStep_write (hphase.trans hph)]
    rfl
  | poll =>
    rw [blockStep_poll hph, blockStep_poll (hphase.trans hph)]
    exact pollDecide_withStop (pollRead p s) level
  | expired => exact absurd hph hne
  | backoff =>
    rw [blockStep_backoff hph, blockStep_backoff (hphase.trans hph)]
    rfl

/-- The next state is the same for both levels of `STOP`, but for `STOP` itself. -/
def StopBlind (run : State → Outcome) : Prop :=
  ∀ s t level, run s = .next t → run (s.withStop level) = .next (t.withStop level)

theorem startIf_stopBlind {select : BitVec 3} {body : State → State}
    (hbody : ∀ s level, body (s.withStop level) = (body s).withStop level) : StopBlind (startIf select body) := by
  intro s t level h
  cases hb : s.busy with
  | true =>
    rw [startIf_busy hb] at h
    cases h
    exact startIf_busy hb
  | false =>
    rw [startIf_idle hb] at h
    cases h
    rw [startIf_idle (s := s.withStop level) hb]
    exact congrArg _ (hbody (accept select s) level)

theorem startCall_withStop (s : State) (level : Bool) :
    startCall (s.withStop level) = (startCall s).withStop level := by
  cases hframe : encodeFrame (callPayload s.cmd s.ibuf) <;> simp [startCall, State.withStop, hframe, raise]

theorem callLine_stopBlind (code : Byte) (params : Bytes) : StopBlind (callLine code params) := by
  intro s t level h
  cases hb : s.busy with
  | true =>
    rw [callLine_busy hb] at h
    cases h
    exact callLine_busy hb
  | false =>
    rw [callLine_idle hb] at h
    cases h
    rw [callLine_idle (s := s.withStop level) hb]
    exact congrArg _
      (startCall_withStop (accept Config.opCall { s with op := Config.opCall, cmd := code, ibuf := params }) level)

theorem exec_stopBlind (i : Instr) : StopBlind (exec i) := by
  cases i with
  | infoFrame | ackFrame | firmwareVersionRsp | samConfigurationRsp | listPassiveTargetRsp | dataExchangeRsp =>
    intro s t level h
    cases h
    rfl
  | checksum | sendAwaitAck | init => exact fun s t level => startIf_stopBlind (fun _ _ => rfl) s t level
  | encode | decode => exact fun s t level => startIf_stopBlind (fun u => endWith_withStop _ u) s t level
  | call => exact startIf_stopBlind startCall_withStop
  | firmwareVersionReq ps | samConfigurationReq ps | listPassiveTargetReq ps | dataExchangeReq ps =>
    exact callLine_stopBlind _ ps

/-- Settles O33: the block's steps by phase, the instructions by what they start. -/
theorem stopIsSampledOnlyAtExpiry : Obligations.StopIsSampledOnlyAtExpiry :=
  ⟨fun _ _ level hne => blockStep_withStop hne level, exec_stopBlind⟩

/-! An acknowledged `CALL` (R176, R204, R205, R207) -/

theorem strip_acks_append (n : Nat) (b : Bytes) : strip ((List.replicate n Config.ack).flatten ++ b) = strip b := by
  induction n with
  | zero => rfl
  | succ n ih => rw [List.replicate_succ, List.flatten_cons, List.append_assoc, strip_ack_append, ih]

theorem pending_acks_append (n : Nat) (b : Bytes) :
    pending ((List.replicate n Config.ack).flatten ++ b) = pending b := by
  rw [pending, strip_acks_append, pending]

theorem contains_acks_append {n : Nat} (hn : 1 ≤ n) (b : Bytes) :
    contains ((List.replicate n Config.ack).flatten ++ b) Config.ack = true := by
  obtain ⟨n, rfl⟩ := Nat.exists_eq_add_of_le' hn
  rw [List.replicate_succ, List.flatten_cons, List.append_assoc, contains_ack_append]

theorem pending_of_no_ack {b : Bytes} (hne : b ≠ []) (h : contains b Config.ack = false) : pending b = b := by
  rw [← strip_of_no_ack h] at hne
  rw [pending_of_strip_ne_nil hne, strip_of_no_ack h]

theorem callEnding_ack (cmd : Byte) : callEnding cmd Config.ack = .result .noTarget := by
  rw [callEnding, parse_ack]

/-- The response code of the command, which is no number past `FF` (R112). -/
theorem checkResponse_match {cmd : Byte} (hcmd : cmd ≠ 0xFF#8) (r : Bytes) :
    checkResponse cmd (0xD5#8 :: (cmd + 1) :: r) = .result (.bytes r) := by
  have hcode : (cmd + 1).toNat = cmd.toNat + 1 := by bv_omega
  rw [checkResponse, if_neg (by decide), if_neg (not_not.mpr hcode)]

theorem callEnding_frame {cmd : Byte} (hcmd : cmd ≠ 0xFF#8) {r : Bytes} (hr : r.length ≤ 253) :
    callEnding cmd (buildFrame (0xD5#8 :: (cmd + 1) :: r)) = .result (.bytes r) := by
  rw [callEnding, buildFrame_eq_wireFrame, parse_wireFrame (by decide) (by simp; omega)]
  exact checkResponse_match hcmd r

/-- A `POLL` of a `CALL` that holds acknowledgements and then other bytes ends as those bytes say. -/
theorem blockStep_acked_call {p : Params} {s : State} {n : Nat} {b : Bytes} (hph : s.phase = .poll)
    (hopl : s.opl = Config.opCall) (hn : 1 ≤ n) (hbytes : s.acc ++ s.rxq = (List.replicate n Config.ack).flatten ++ b) :
    blockStep p s = endWith (callEnding s.cmd (pending b)) (pollRead p s) := by
  rw [blockStep_poll hph, pollStep_call (by rw [hbytes]; exact contains_acks_append hn b) hopl, hbytes,
    pending_acks_append]

/-- Settles O58: behind the acknowledgements stands the response, or nothing. -/
theorem acknowledgedCallDeliversItsResponse : Obligations.AcknowledgedCallDeliversItsResponse := by
  refine fun p s n r hph hopl hn => ⟨fun hcmd hr hack hbytes => ?_, fun hbytes => ?_⟩
  · rw [blockStep_acked_call hph hopl hn hbytes, pending_of_no_ack (by simp [buildFrame]) hack,
      callEnding_frame hcmd hr]
    exact ⟨rfl, rfl, rfl, rfl, rfl, rfl⟩
  · rw [blockStep_acked_call hph hopl hn (hbytes.trans (List.append_nil _).symm), pending_of_strip_nil strip_nil,
      callEnding_ack]
    exact ⟨rfl, rfl, rfl, rfl, rfl, rfl⟩

/-! Runs against an environment (R78, R178) -/

/-- What every step keeps, a run keeps. -/
theorem envRun_keeps {p : Params} {Kept : State → Prop} (hstep : ∀ s e, Kept s → Kept (envStep p s e))
    (es : List Env) {s : State} (hs : Kept s) : Kept (envRun p s es) := by
  induction es generalizing s with
  | nil => exact hs
  | cons e rest ih => exact ih (hstep s e hs)

/-- A run whose steps lower a well-founded rank until `Ended` holds comes to an end. -/
theorem envRun_ends {p : Params} {α : Type} [LT α] [WellFoundedLT α] (rank : State → α) {Running Ended : State → Prop}
    {env : Nat → Env} (hstep : ∀ s k, Running s →
      Ended (envStep p s (env k)) ∨ Running (envStep p s (env k)) ∧ rank (envStep p s (env k)) < rank s)
    {s : State} (hs : Running s) : ∃ n, Ended (envRun p s ((List.range n).map env)) := by
  induction hr : rank s using WellFoundedLT.induction generalizing s env with
  | _ r ih =>
    rcases hstep s 0 hs with hend | ⟨hrun, hlt⟩
    · exact ⟨1, hend⟩
    · obtain ⟨n, hn⟩ := ih _ (hr ▸ hlt) (env := env ∘ Nat.succ) (fun t k => hstep t (k + 1)) hrun rfl
      refine ⟨n + 1, ?_⟩
      rw [List.range_succ_eq_map, List.map_cons, List.map_map]
      exact hn

/-- The state after the environment's move, in which the block takes its step. -/
def State.withEnv (s : State) (e : Env) : State := deviceArrives e.1 { s with stop := e.2 }

theorem envStep_eq_blockStep (p : Params) (s : State) (e : Env) : envStep p s e = blockStep p (s.withEnv e) := rfl

@[simp] theorem withEnv_phase (s : State) (e : Env) : (s.withEnv e).phase = s.phase := rfl
@[simp] theorem withEnv_acc (s : State) (e : Env) : (s.withEnv e).acc = s.acc := rfl
@[simp] theorem withEnv_rxq (s : State) (e : Env) : (s.withEnv e).rxq = s.rxq ++ e.1 := rfl

theorem Inv.withEnv {p : Params} {s : State} (h : Inv p s) (e : Env) : Inv p (s.withEnv e) :=
  h.of_environment e.2 (s.rxq ++ e.1) s.sched s.freeCount

theorem envStep_inv {p : Params} {s : State} (h : Inv p s) (e : Env) : Inv p (envStep p s e) :=
  blockStep_inv (h.withEnv e)

theorem blockStep_phase_ne_flush (p : Params) (s : State) : (blockStep p s).phase ≠ .flush := by
  intro hflush
  have hstep := blockStep_phaseStep p s
  rw [hflush] at hstep
  generalize s.phase = ph at hstep
  cases hstep

/-! Without an acknowledgement, a bound and `STOP`, nothing ends the operation (R182) -/

/-- A running operation shows `BUSY` alone. -/
theorem Inv.status_of_busy {p : Params} {s : State} (h : Inv p s) (hb : s.busy = true) : s.status = 0x01#8 := by
  obtain ⟨hdone, herr, hrkind, -⟩ := h.busy_clear hb
  rw [State.status, hb, hdone, herr, hrkind]
  rfl

/-- A step that ends the operation has an acknowledgement in `ACC`, or sees `STOP` or the end of the retries. -/
theorem blockStep_busy {p : Params} {s : State} (hb : s.busy = true) (hnone : p.maxRetries = none)
    (hstop : s.stop = false) (hacc : contains (blockStep p s).acc Config.ack = false) :
    (blockStep p s).busy = true := by
  cases hph : s.phase with
  | idle => rwa [blockStep_idle hph]
  | flush => rwa [blockStep_flush hph]
  | write => rwa [blockStep_write hph]
  | poll =>
    obtain ⟨hread, -⟩ := pollStep_frame p s
    rw [blockStep_poll hph] at hacc ⊢
    rcases pollStep_cases p s with ⟨hack, -⟩ | ⟨-, -, heq⟩ | ⟨-, -, heq⟩
    · rw [hread, hack] at hacc
      cases hacc
    · rwa [heq]
    · rwa [heq]
  | expired =>
    rw [blockStep_expired hph]
    rcases expiredStep_cases p s with ⟨-, hhigh | ⟨m, hm, -⟩⟩ | ⟨heq, -⟩
    · exact absurd hhigh (Bool.eq_false_iff.mp hstop)
    · rw [hnone] at hm
      cases hm
    · rwa [heq]
  | backoff => rwa [blockStep_backoff hph]

/-- The bytes an operation holds: none before its flush, `ACC` and `RXQ` after it. -/
def State.held (s : State) : Bytes := if s.phase = .flush then [] else s.acc ++ s.rxq

theorem held_of_flush {s : State} (h : s.phase = .flush) : s.held = [] := if_pos h

theorem held_of_not_flush {s : State} (h : s.phase ≠ .flush) : s.held = s.acc ++ s.rxq := if_neg h

/-- A block step takes in no byte that the operation did not hold, and drops none but in front. -/
theorem blockStep_held (p : Params) (s : State) : (blockStep p s).held <:+ s.held := by
  rw [held_of_not_flush (blockStep_phase_ne_flush p s)]
  by_cases hflush : s.phase = .flush
  · simp [blockStep_flush hflush]
  rw [held_of_not_flush hflush]
  cases hph : s.phase with
  | idle => simp [blockStep_idle hph]
  | flush => exact absurd hph hflush
  | write =>
    rw [blockStep_write hph, writeStep_acc, writeStep_rxq]
    split
    · exact List.suffix_append s.acc s.rxq
    · exact List.suffix_rfl
  | poll =>
    obtain ⟨hacc, hrxq, -⟩ := pollStep_frame p s
    simp [blockStep_poll hph, hacc, hrxq]
  | expired =>
    rw [blockStep_expired hph]
    rcases expiredStep_cases p s with ⟨heq, -⟩ | ⟨heq, -⟩ <;> simp [heq]
  | backoff => simp [blockStep_backoff hph]

theorem envStep_held (p : Params) (s : State) (e : Env) : (envStep p s e).held <:+ s.held ++ e.1 := by
  refine (blockStep_held p (s.withEnv e)).trans ?_
  by_cases hph : s.phase = .flush
  · simp [held_of_flush, hph]
  · simp [held_of_not_flush hph, held_of_not_flush (s := s.withEnv e) hph]

theorem envStep_acc_infix (p : Params) (s : State) (e : Env) : (envStep p s e).acc <:+: (envStep p s e).held := by
  rw [envStep_eq_blockStep, held_of_not_flush (blockStep_phase_ne_flush p _)]
  exact (List.prefix_append _ _).isInfix

section
variable {p : Params} {s : State} {es : List Env} (hnone : p.maxRetries = none)
include hnone

/-- An operation goes on as long as no step leaves an acknowledgement in `ACC`. -/
theorem envRun_busy_of_acc (hb : s.busy = true) (hstop : ∀ e ∈ es, e.2 = false)
    (hacc : ∀ k, 1 ≤ k → k ≤ es.length → contains (envRun p s (es.take k)).acc Config.ack = false) :
    (envRun p s es).busy = true := by
  induction es generalizing s with
  | nil => exact hb
  | cons e rest ih =>
    obtain ⟨hlow, hrest⟩ := List.forall_mem_cons.mp hstop
    refine ih (blockStep_busy hb hnone hlow (hacc 1 (by simp) (by simp))) hrest fun k _ hk => ?_
    exact hacc (k + 1) (by simp) (by simpa using hk)

/-- An operation goes on as long as what it holds and what arrives have no acknowledgement in them. -/
theorem envRun_busy_of_held (hb : s.busy = true) (hstop : ∀ e ∈ es, e.2 = false)
    (hheld : contains (s.held ++ (es.map (·.1)).flatten) Config.ack = false) : (envRun p s es).busy = true := by
  induction es generalizing s with
  | nil => exact hb
  | cons e rest ih =>
    obtain ⟨hlow, hrest⟩ := List.forall_mem_cons.mp hstop
    rw [List.map_cons, List.flatten_cons, ← List.append_assoc] at hheld
    obtain ⟨dropped, hdropped⟩ := envStep_held p s e
    rw [← hdropped, List.append_assoc] at hheld
    have hnext := contains_ack_of_infix (List.suffix_append _ _).isInfix hheld
    have hacc := (envStep_acc_infix p s e).trans (List.prefix_append _ (rest.map (·.1)).flatten).isInfix
    exact ih (blockStep_busy hb hnone hlow (contains_ack_of_infix hacc hnext)) hrest hnext

end

/-- Settles O55: no step ends the operation, so it is still running, and the invariant gives `STATUS`. -/
theorem silentHandshakeNeverEnds : Obligations.SilentHandshakeNeverEnds := by
  intro p s es hinv hnone hb hstop held
  have hrun : Inv p (envRun p s es) := envRun_keeps (Kept := Inv p) (fun _ e h => envStep_inv h e) es hinv
  exact ⟨fun hacc => hrun.status_of_busy (envRun_busy_of_acc hnone hb hstop hacc),
    fun hheld => hrun.status_of_busy (envRun_busy_of_held hnone hb hstop hheld)⟩

/-! A handshake comes to an end (R177, R178, R182) -/

/-- A bound on the steps to the next `WRITE` or the end: a poll has at most the rest of the window before it. -/
def State.stepsToWrite (s : State) : Nat :=
  match s.phase with
  | .idle => 0
  | .flush => 1
  | .write => 0
  | .poll => 3 + (s.ackTimeoutMs.toNat - s.timer)
  | .expired => 2
  | .backoff => 1

theorem pollStep_att (p : Params) (s : State) : (pollStep p s).att = s.att := by
  obtain ⟨-, -, hatt, -⟩ := pollStep_frame p s
  exact hatt

/-- A poll that does not end the operation brings the end of the window nearer. -/
theorem pollStep_stepsToWrite {p : Params} (hp : p.Admissible) {s : State} (hph : s.phase = .poll) :
    (pollStep p s).busy = false ∨
      ((pollStep p s).phase = .poll ∨ (pollStep p s).phase = .expired) ∧
        (pollStep p s).stepsToWrite < s.stepsToWrite := by
  have hinterval : 1 ≤ p.pollIntervalMs := hp
  rcases pollStep_cases p s with ⟨hack, -⟩ | ⟨-, -, heq⟩ | ⟨-, hgo, heq⟩
  · exact .inl (pollStep_ack_ends hack).2.1
  · exact .inr ⟨.inr (by rw [heq]), by simp only [heq, State.stepsToWrite, hph]; omega⟩
  · refine .inr ⟨.inl (by rw [heq, pollRead_phase, hph]), ?_⟩
    simp only [heq, State.stepsToWrite, hph, pollRead_phase, pollRead_timer, pollRead_ackTimeoutMs]
    omega

/-- Settles O57: with `STOP` held, every step before the end is a poll that brings the expiry nearer. -/
theorem heldStopEndsWithinTheWindow : Obligations.HeldStopEndsWithinTheWindow := by
  intro p s ds hp hph
  refine envRun_ends State.stepsToWrite
    (Running := fun t => (t.phase = .poll ∨ t.phase = .expired) ∧ t.att = s.att)
    (Ended := fun t => t.busy = false ∧ t.att = s.att) (fun t k ⟨hphase, hatt⟩ => ?_) ⟨.inl hph, rfl⟩
  let u := t.withEnv (ds k, true)
  rw [envStep_eq_blockStep]
  rcases hphase with hpoll | hexpired
  · rw [blockStep_poll (s := u) hpoll, pollStep_att]
    exact (pollStep_stepsToWrite (s := u) hp hpoll).imp (⟨·, hatt⟩) fun ⟨hnext, hlt⟩ => ⟨⟨hnext, hatt⟩, hlt⟩
  · rw [blockStep_expired (s := u) hexpired, expiredStep_stop (s := u) rfl]
    exact .inl ⟨rfl, hatt⟩

/-- How many frames an operation with the retry bound `m` can still write, one more before its flush. -/
def State.framesLeft (m : Nat) (s : State) : Nat := if s.phase = .flush then m + 2 else m + 1 - s.att

theorem framesLeft_of_flush {m : Nat} {s : State} (h : s.phase = .flush) : s.framesLeft m = m + 2 := if_pos h

theorem framesLeft_of_not_flush {m : Nat} {s : State} (h : s.phase ≠ .flush) : s.framesLeft m = m + 1 - s.att :=
  if_neg h

/-- The rank of a running operation: the frames it can still write, then the steps to the next one. -/
def State.rank (m : Nat) (s : State) : Nat ×ₗ Nat := toLex (s.framesLeft m, s.stepsToWrite)

/-- A step that writes no frame and has a step less to the next one. -/
theorem rank_lt_of_steps {m : Nat} {s t : State} (hs : s.phase ≠ .flush) (ht : t.phase ≠ .flush) (hatt : t.att = s.att)
    (hlt : t.stepsToWrite < s.stepsToWrite) : t.rank m < s.rank m := by
  rw [State.rank, State.rank, Prod.Lex.toLex_lt_toLex, framesLeft_of_not_flush hs, framesLeft_of_not_flush ht, hatt]
  exact .inr ⟨rfl, hlt⟩

theorem rank_lt_of_frames {m : Nat} {s t : State} (hlt : t.framesLeft m < s.framesLeft m) : t.rank m < s.rank m :=
  Prod.Lex.toLex_lt_toLex.mpr (.inl hlt)

/-- Every step of a running operation ends it or lowers its rank. -/
theorem blockStep_rank {p : Params} {s : State} {m : Nat} (hp : p.Admissible) (hm : p.maxRetries = some m)
    (hinv : Inv p s) (hb : s.busy = true) :
    (blockStep p s).busy = false ∨ (blockStep p s).rank m < s.rank m := by
  have hnext := blockStep_phase_ne_flush p s
  cases hph : s.phase with
  | idle => exact absurd hph (hinv.busy_iff.mp hb)
  | flush =>
    refine .inr (rank_lt_of_frames ?_)
    rw [framesLeft_of_not_flush hnext, framesLeft_of_flush hph]
    omega
  | write =>
    have hatt := (hinv.att_bound m hm).1 (.inl hph)
    refine .inr (rank_lt_of_frames ?_)
    rw [framesLeft_of_not_flush hnext, framesLeft_of_not_flush (by simp [hph]), blockStep_write hph, writeStep_att]
    omega
  | poll =>
    rw [blockStep_poll hph] at hnext ⊢
    exact (pollStep_stepsToWrite hp hph).imp_right fun ⟨_, hlt⟩ =>
      rank_lt_of_steps (by simp [hph]) hnext (pollStep_att p s) hlt
  | expired =>
    rw [blockStep_expired hph]
    rcases expiredStep_cases p s with ⟨heq, -⟩ | ⟨heq, -⟩ <;> rw [heq]
    · exact .inl rfl
    · exact .inr (rank_lt_of_steps (by simp [hph]) (by simp) rfl (by simp [State.stepsToWrite, hph]))
  | backoff =>
    rw [blockStep_backoff hph]
    exact .inr (rank_lt_of_steps (by simp [hph]) (by simp) rfl (by simp [State.stepsToWrite, hph]))

/-- Settles O56: the rank falls in every step that does not end the operation. -/
theorem boundedHandshakeEnds : Obligations.BoundedHandshakeEnds := by
  intro p s m env hp hm hinv hb
  refine envRun_ends (State.rank m) (Running := fun t => Inv p t ∧ t.busy = true) (Ended := (·.busy = false))
    (fun t k ⟨ht, htb⟩ => ?_) ⟨hinv, hb⟩
  rcases blockStep_rank hp hm (ht.withEnv (env k)) htb with hend | hlt
  · exact .inl hend
  · cases hnext : (envStep p t (env k)).busy with
    | false => exact .inl rfl
    | true => exact .inr ⟨⟨envStep_inv ht (env k), rfl⟩, hlt⟩

/-! The history of a handshake (R82, R180) -/

/-- A window still has a poll after `j` polls when there was none, or when they have not filled it (R180). -/
theorem lt_npoll_iff {p : Params} (hp : p.Admissible) {timeout j : Nat} :
    j < p.npoll timeout ↔ j = 0 ∨ j * p.pollIntervalMs < timeout := by
  have hinterval : 1 ≤ p.pollIntervalMs := hp
  rw [Params.npoll, lt_max_iff, Nat.lt_one_iff, Nat.lt_iff_add_one_le, Nat.le_div_iff_mul_le hinterval, Nat.add_mul]
  omega

/-- The poll that fills the window is the last of the attempt. -/
theorem eq_npoll_of_expires {p : Params} (hp : p.Admissible) {timeout j : Nat} (hj : j < p.npoll timeout)
    (hexp : timeout ≤ (j + 1) * p.pollIntervalMs) : j + 1 = p.npoll timeout := by
  have hlast : ¬ j + 1 < p.npoll timeout := by
    rw [lt_npoll_iff hp]
    omega
  omega

theorem attemptEvents_append (txf : Bytes) (as bs : List (List Bytes)) :
    attemptEvents txf (as ++ bs) = attemptEvents txf as ++ attemptEvents txf bs := by
  induction as with
  | nil => rfl
  | cons reads rest ih => simp [attemptEvents, ih]

/-- A write begins an attempt. -/
theorem attemptEvents_write (txf : Bytes) (full : List (List Bytes)) :
    attemptEvents txf (full ++ [[]]) = attemptEvents txf full ++ [.write txf] := by
  rw [attemptEvents_append]
  rfl

/-- A read joins the last attempt. -/
theorem attemptEvents_read (txf : Bytes) (full : List (List Bytes)) (reads : List Bytes) (got : Bytes) :
    attemptEvents txf (full ++ [reads ++ [got]]) = attemptEvents txf (full ++ [reads]) ++ [.read got] := by
  simp [attemptEvents_append, attemptEvents]

/-- In `t` the handshake that flushed `discarded` in the state `s` has made these attempts, with the frame and the
window of `s`. -/
structure Recorded (s : State) (discarded : Bytes) (attempts : List (List Bytes)) (t : State) : Prop where
  hist : t.hist = s.hist ++ .flush discarded :: attemptEvents s.txf attempts
  att : t.att = attempts.length
  txf : t.txf = s.txf
  timeout : t.ackTimeoutMs = s.ackTimeoutMs

/-- How far the handshake begun in `s` has come: `full` are the attempts whose window expired, `reads` the reads of the
attempt that is under way or was the last. -/
inductive Progress (p : Params) (s : State) (discarded : Bytes) (full : List (List Bytes)) (t : State) : Prop where
  /-- Before the next write. -/
  | between (hph : t.phase = .write ∨ t.phase = .backoff) (hrec : Recorded s discarded full t)
  /-- In a window that goes on. -/
  | polling (reads : List Bytes) (hph : t.phase = .poll) (hrec : Recorded s discarded (full ++ [reads]) t)
      (hlt : reads.length < p.npoll s.ackTimeoutMs.toNat) (htimer : t.timer = reads.length * p.pollIntervalMs)
  /-- After a window without acknowledgement. -/
  | expired (reads : List Bytes) (hph : t.phase = .expired) (hrec : Recorded s discarded (full ++ [reads]) t)
      (hlen : reads.length = p.npoll s.ackTimeoutMs.toNat) (hack : contains t.acc Config.ack = false)
  /-- After the end, by a timeout or by an acknowledgement. -/
  | ended (reads : List Bytes) (hph : t.phase = .idle) (hrec : Recorded s discarded (full ++ [reads]) t)
      (hpos : 1 ≤ reads.length) (hle : reads.length ≤ p.npoll s.ackTimeoutMs.toNat)
      (htimeout : t.err = some .handshakeTimeout →
        reads.length = p.npoll s.ackTimeoutMs.toNat ∧ contains t.acc Config.ack = false)
      (hack : t.err ≠ some .handshakeTimeout → contains t.acc Config.ack = true)

/-- A handshake begun in `s` is somewhere, after attempts that each had all the reads of a window. -/
def UnderWay (p : Params) (s : State) (discarded : Bytes) (t : State) : Prop :=
  ∃ full, (∀ reads ∈ full, reads.length = p.npoll s.ackTimeoutMs.toNat) ∧ Progress p s discarded full t

section
variable {p : Params} {s t : State} {discarded : Bytes} {full : List (List Bytes)} {reads : List Bytes}

theorem Recorded.withEnv {attempts : List (List Bytes)} (h : Recorded s discarded attempts t) (e : Env) :
    Recorded s discarded attempts (t.withEnv e) :=
  { h with }

theorem Progress.withEnv (h : Progress p s discarded full t) (e : Env) : Progress p s discarded full (t.withEnv e) := by
  cases h with
  | between hph hrec => exact .between hph (hrec.withEnv e)
  | polling reads hph hrec hlt htimer => exact .polling reads hph (hrec.withEnv e) hlt htimer
  | expired reads hph hrec hlen hack => exact .expired reads hph (hrec.withEnv e) hlen hack
  | ended reads hph hrec hpos hle htimeout hack =>
    exact .ended reads hph (hrec.withEnv e) hpos hle htimeout hack

theorem Recorded.writeStep (h : Recorded s discarded full t) :
    Recorded s discarded (full ++ [[]]) (writeStep p t) where
  hist := by simp [h.hist, h.txf, attemptEvents_write]
  att := by simp [h.att]
  txf := h.txf
  timeout := h.timeout

theorem Recorded.pollRead (h : Recorded s discarded (full ++ [reads]) t) :
    Recorded s discarded (full ++ [reads ++ [t.rxq]]) (pollRead p t) where
  hist := by simp [h.hist, attemptEvents_read]
  att := by simp [h.att]
  txf := h.txf
  timeout := h.timeout

theorem Recorded.endWith {attempts : List (List Bytes)} (h : Recorded s discarded attempts t) (e : Ending) :
    Recorded s discarded attempts (endWith e t) := by
  cases e <;> exact { h with }

/-- A poll adds its read to the attempt; the one that fills the window is the last. -/
theorem progress_pollStep (hp : p.Admissible) (hph : t.phase = .poll)
    (hrec : Recorded s discarded (full ++ [reads]) t) (hlt : reads.length < p.npoll s.ackTimeoutMs.toNat)
    (htimer : t.timer = reads.length * p.pollIntervalMs) : Progress p s discarded full (pollStep p t) := by
  have hread := hrec.pollRead (p := p)
  have hlen : (reads ++ [t.rxq]).length = reads.length + 1 := List.length_append
  have hnext : t.timer + p.pollIntervalMs = (reads ++ [t.rxq]).length * p.pollIntervalMs := by
    rw [htimer, hlen, Nat.add_mul, Nat.one_mul]
  rcases pollStep_cases p t with ⟨hack, e, heq, he⟩ | ⟨hack, hexp, heq⟩ | ⟨hack, hgo, heq⟩ <;> rw [heq]
  · obtain ⟨-, -, -, herr⟩ := endWith_flags e (pollRead p t)
    obtain ⟨o, r, k, hend⟩ := endWith_frame e (pollRead p t)
    refine .ended _ (by rw [hend]) (hread.endWith e) (by omega) (by omega) (fun htimeout => ?_) (fun _ => ?_)
    · exact absurd rfl (he _ ((herr _).mp htimeout)).2
    · rw [hend]
      exact hack
  · refine .expired _ rfl { hread with } ?_ hack
    rw [hrec.timeout, hnext, hlen] at hexp
    rw [hlen]
    exact eq_npoll_of_expires hp hlt hexp
  · refine .polling _ hph hread ?_ hnext
    rw [lt_npoll_iff hp, ← hnext, ← hrec.timeout]
    exact .inr hgo

/-- An expiry ends the operation with the timeout, or leaves one more full attempt behind. -/
theorem underWay_expiredStep (hfull : ∀ reads ∈ full, reads.length = p.npoll s.ackTimeoutMs.toNat)
    (hp : p.Admissible) (hrec : Recorded s discarded (full ++ [reads]) t)
    (hlen : reads.length = p.npoll s.ackTimeoutMs.toNat) (hack : contains t.acc Config.ack = false) :
    UnderWay p s discarded (expiredStep p t) := by
  rcases expiredStep_cases p t with ⟨heq, -⟩ | ⟨heq, -⟩ <;> rw [heq]
  · refine ⟨full, hfull, .ended reads rfl { hrec with } ?_ hlen.le (fun _ => ⟨hlen, hack⟩) (fun hne => absurd rfl hne)⟩
    rw [hlen]
    exact (lt_npoll_iff hp).mpr (.inl rfl)
  · exact ⟨full ++ [reads], by simpa [or_imp, forall_and] using ⟨hfull, hlen⟩, .between (.inr rfl) { hrec with }⟩

theorem UnderWay.blockStep (hp : p.Admissible) (h : UnderWay p s discarded t) :
    UnderWay p s discarded (blockStep p t) := by
  obtain ⟨full, hfull, hprogress⟩ := h
  cases hprogress with
  | between hph hrec =>
    rcases hph with hph | hph
    · rw [blockStep_write hph]
      exact ⟨full, hfull, .polling [] rfl hrec.writeStep ((lt_npoll_iff hp).mpr (.inl rfl)) (by simp)⟩
    · rw [blockStep_backoff hph]
      exact ⟨full, hfull, .between (.inl rfl) { hrec with }⟩
  | polling reads hph hrec hlt htimer =>
    rw [blockStep_poll hph]
    exact ⟨full, hfull, progress_pollStep hp hph hrec hlt htimer⟩
  | expired reads hph hrec hlen hack =>
    rw [blockStep_expired hph]
    exact underWay_expiredStep hfull hp hrec hlen hack
  | ended reads hph hrec hpos hle htimeout hack =>
    rw [blockStep_idle hph]
    exact ⟨full, hfull, .ended reads hph hrec hpos hle htimeout hack⟩

theorem UnderWay.envStep (hp : p.Admissible) (h : UnderWay p s discarded t) (e : Env) :
    UnderWay p s discarded (envStep p t e) := by
  obtain ⟨full, hfull, hprogress⟩ := h
  exact UnderWay.blockStep hp ⟨full, hfull, hprogress.withEnv e⟩

/-- After the `FLUSH` step no attempt has been made. -/
theorem underWay_flush (hph : s.phase = .flush) (e : Env) : UnderWay p s (s.rxq ++ e.1) (envStep p s e) := by
  rw [envStep_flush hph]
  exact ⟨[], by simp, .between (.inl rfl) ⟨rfl, rfl, rfl, rfl⟩⟩

/-- The attempts of a handshake that is under way, as the statement counts them. -/
theorem UnderWay.attempts (h : UnderWay p s discarded t) :
    ∃ attempts, Recorded s discarded attempts t ∧
      (∀ reads ∈ attempts.dropLast, reads.length = p.npoll s.ackTimeoutMs.toNat) ∧
      (∀ reads ∈ attempts, reads.length ≤ p.npoll s.ackTimeoutMs.toNat) ∧
      (t.phase = .idle → ∃ reads, attempts.getLast? = some reads ∧ 1 ≤ reads.length ∧
        (t.err = some .handshakeTimeout →
          reads.length = p.npoll s.ackTimeoutMs.toNat ∧ contains t.acc Config.ack = false) ∧
        (t.err ≠ some .handshakeTimeout → contains t.acc Config.ack = true)) := by
  obtain ⟨full, hfull, hprogress⟩ := h
  have hlast {reads : List Bytes} (hle : reads.length ≤ p.npoll s.ackTimeoutMs.toNat) :
      ∀ r ∈ full ++ [reads], r.length ≤ p.npoll s.ackTimeoutMs.toNat := by
    simpa [or_imp, forall_and] using ⟨fun r hr => (hfull r hr).le, hle⟩
  cases hprogress with
  | between hph hrec =>
    exact ⟨full, hrec, fun r hr => hfull r (List.mem_of_mem_dropLast hr), fun r hr => (hfull r hr).le,
      fun hidle => by simp [hidle] at hph⟩
  | polling reads hph hrec hlt =>
    exact ⟨full ++ [reads], hrec, by simpa using hfull, hlast hlt.le, fun hidle => by simp [hidle] at hph⟩
  | expired reads hph hrec hlen =>
    exact ⟨full ++ [reads], hrec, by simpa using hfull, hlast hlen.le, fun hidle => by simp [hidle] at hph⟩
  | ended reads _ hrec hpos hle htimeout hack =>
    exact ⟨full ++ [reads], hrec, by simpa using hfull, hlast hle,
      fun _ => ⟨reads, by simp, hpos, htimeout, hack⟩⟩

end

/-- Settles O53: the flush begins a handshake without attempts, and every step keeps it under way. -/
theorem handshakeHistoryShape : Obligations.HandshakeHistoryShape := by
  intro p s es hp hph hne t npoll
  obtain ⟨e, rest, rfl⟩ := List.exists_cons_of_ne_nil hne
  have hrun : UnderWay p s (s.rxq ++ e.1) t :=
    envRun_keeps (Kept := UnderWay p s (s.rxq ++ e.1)) (fun _ e h => h.envStep hp e) rest (underWay_flush hph e)
  obtain ⟨attempts, hrec, hshape⟩ := hrun.attempts
  exact ⟨_, attempts, hrec.hist, hrec.att, hshape⟩

end Sys2Proof.Machine

/-! The command channel (43_commandchannel.md R201 to R209): parameters, the starts of `CALL` and `INIT`, and the ending
of a `CALL`. -/

namespace Sys2Proof.Machine

/-! The ending of a `CALL` (R204, R205, R207, R208) -/

/-- `CALL` reads its pending response with the decoder of `DECODE`, and makes of each of its endings one of its own. -/
theorem callEnding_of_walk (cmd : Byte) (pend : Bytes) :
    (∀ k, decodeWalk pend = .raised k → callEnding cmd pend = .raised k) ∧
    (decodeWalk pend = .result .ackSentinel → callEnding cmd pend = .result .noTarget) ∧
    (∀ d, decodeWalk pend = .result (.bytes d) → callEnding cmd pend = checkResponse cmd d) := by
  rw [← decoderIsTheIndexWalk, decodeEnding_eq_ending_parse]
  unfold callEnding
  cases parse pend <;> simp [Parsed.ending]

theorem checkResponse_short (cmd : Byte) {d : Bytes} (h : d.length < 2) :
    checkResponse cmd d = .raised .unexpectedResponse := by
  match d, h with
  | [], _ | [_], _ => rfl

theorem checkResponse_wrong_header {cmd tag code : Byte} (r : Bytes)
    (h : tag ≠ 0xD5#8 ∨ code.toNat ≠ cmd.toNat + 1) :
    checkResponse cmd (tag :: code :: r) = .raised .unexpectedResponse := by
  rw [checkResponse]
  split_ifs with htag hcode
  · rfl
  · rfl
  · exact absurd h (not_or.mpr ⟨htag, hcode⟩)

theorem checkResponse_right_header {cmd tag code : Byte} (r : Bytes) (htag : tag = 0xD5#8)
    (hcode : code.toNat = cmd.toNat + 1) : checkResponse cmd (tag :: code :: r) = .result (.bytes r) := by
  subst htag
  rw [checkResponse, if_neg (by decide), if_neg (not_not.mpr hcode)]

/-- Settles O13: the decoder decides first, and a payload it gives is left to the header check. -/
theorem callEndingsInOrder : Obligations.CallEndingsInOrder := by
  intro cmd pend
  obtain ⟨hraised, hsentinel, hpayload⟩ := callEnding_of_walk cmd pend
  refine ⟨hraised, hsentinel, fun d hd => ?_⟩
  rw [hpayload d hd]
  refine ⟨checkResponse_short cmd, ?_⟩
  rintro tag code r rfl
  exact ⟨checkResponse_wrong_header r, checkResponse_right_header r⟩

/-! The parameters of a `CALL` (R201, log 13) -/

theorem flattenParams_cons (p : Param) (ps : List Param) :
    flattenParams (p :: ps) = do return (← flattenParam p) ++ (← flattenParams ps) := by
  rw [flattenParams]
  cases flattenParam p
  · rfl
  · cases flattenParams ps <;> rfl

/-- The first parameters are flattened first, so it is their error that stands. -/
theorem flattenParams_append (ps qs : List Param) :
    flattenParams (ps ++ qs) = do return (← flattenParams ps) ++ (← flattenParams qs) := by
  induction ps with
  | nil =>
    rw [List.nil_append]
    cases flattenParams qs <;> rfl
  | cons p ps ih => simp [flattenParams_cons, ih, ← List.append_assoc]

theorem flattenParams_ints (vs : List Int) : flattenParams (vs.map .int) = .ok (vs.map (BitVec.ofInt 8)) := by
  induction vs with
  | nil => rfl
  | cons v vs ih =>
    rw [List.map_cons, flattenParams_cons, ih]
    rfl

/-- Settles O59: flattening runs from left to right, over a concatenation and into a nested sequence alike. -/
theorem parametersFlattenInOrder : Obligations.ParametersFlattenInOrder := by
  refine ⟨flattenParams_ints, fun ps qs a b ha hb => ⟨?_, ?_⟩, fun ps qs a ha => ?_⟩
  · rw [flattenParams_append, ha, hb]
    rfl
  · rw [flattenParams_cons, flattenParam, ha, hb]
    rfl
  · rw [flattenParams_append, flattenParams_cons, flattenParam, ha]
    rfl

/-! The starts of `CALL` and `INIT` (R202, R206, R209) -/

/-- Settles O22: an accepted `CALL` has its frame built, or is refused before anything is sent. -/
theorem callStarts : Obligations.CallStarts := by
  intro s hidle
  rw [exec, execCall_idle hidle]
  rcases startCall_cases (accept Config.opCall s) with ⟨hfits, heq⟩ | ⟨hlong, heq⟩
  · exact ⟨fun _ => congrArg _ heq, fun hlong => absurd hfits (Nat.not_le.mpr hlong)⟩
  · exact ⟨fun hfits => absurd hlong (Nat.not_lt.mpr hfits), fun _ => congrArg _ heq⟩

/-- Settles O23: an accepted `INIT` writes the wake-up bytes and finishes in its own step. -/
theorem initCompletes : Obligations.InitCompletes := by
  intro s hidle
  rw [exec, execInit_idle hidle]
  rfl

end Sys2Proof.Machine

/-! The consumer layer (44_cardops_consumers.md R220 to R231): what each function asks of `CALL`, the outcome it reads from
the result, and initialize. -/

namespace Sys2Proof.Machine

/-! The line of a function (R220, R226) -/

theorem CardOp.turn_of_request {c : CardOp} {code : Byte} {params : Bytes} (h : c.request = .ok (code, params)) :
    c.turn = some (.hostCall code params) := by
  rw [CardOp.turn, h]

theorem CardOp.request_of_turn {c : CardOp} (h : c.turn ≠ none) : ∃ x, c.request = .ok x := by
  cases hreq : c.request with
  | error k => exact absurd (CardOp.turn_eq_none.mpr ⟨k, hreq⟩) h
  | ok x => exact ⟨x, rfl⟩

theorem writeBlock_request {d : Bytes} (h : d.length = 16) (blk : Int) :
    (CardOp.writeBlock blk d).request =
      .ok (Config.cmdDataExchange, [0x01#8, Config.writeSubCommand, intByte blk] ++ d) :=
  if_neg (not_not.mpr h)

theorem writeBlock_request_error {d : Bytes} (h : d.length ≠ 16) (blk : Int) :
    (CardOp.writeBlock blk d).request = .error .invalidBlockSize := if_pos h

/-! The outcome of a function, from the bytes of the result (R223 to R226) -/

theorem targetOutcome_of_count {count : Byte} (h : count ≠ 0x01#8) (res : Bytes) :
    targetOutcome (count :: res) = .failed .multipleCardsDetected := if_pos h

section
variable {len : Byte} {rest : Bytes} (a1 a2 a3 a4 : Byte)

theorem targetOutcome_too_long (h : len.toNat > 7) :
    targetOutcome (0x01#8 :: a1 :: a2 :: a3 :: a4 :: len :: rest) = .failed .uidTooLong :=
  dif_neg (Nat.not_le.mpr h)

/-- The UID is the `len` bytes after the length byte, all of them there. -/
theorem targetOutcome_uid (hlen : len.toNat ≤ 7) (hrest : len.toNat ≤ rest.length) :
    targetOutcome (0x01#8 :: a1 :: a2 :: a3 :: a4 :: len :: rest) =
      .uid ⟨rest.take len.toNat, (List.length_take_le _ _).trans hlen⟩ := by
  have hfits : ¬ (0x01#8 :: a1 :: a2 :: a3 :: a4 :: len :: rest).length < 6 + len.toNat := by
    simp only [List.length_cons]
    omega
  exact (dif_pos hlen).trans (if_neg hfits)

end

theorem flagOutcome_eq_head (res : Bytes) : flagOutcome res = .flag (decide (res.head? = some 0x00#8)) := by
  rw [List.head?_eq_getElem?, flagOutcome]

theorem readOutcome_of_status {b : Byte} (h : b ≠ 0x00#8) (res : Bytes) : readOutcome (b :: res) = .noData := if_pos h

theorem readOutcome_of_block {res : Bytes} (h : res.length ≥ 16) :
    readOutcome (0x00#8 :: res) = .data (res.take 16) :=
  if_neg (Nat.not_lt.mpr h)

/-! Sentinel, error and channel (R228, R231) -/

theorem CardOp.resultOutcome_noTarget {c : CardOp} (hv : c ≠ .getFirmwareVersion) (hc : c ≠ .configureReader) :
    c.resultOutcome .noTarget = .noTarget := by
  cases c with
  | getFirmwareVersion => exact absurd rfl hv
  | configureReader => exact absurd rfl hc
  | discoverTarget | authenticateBlock | readBlock | writeBlock => rfl

/-- A function fails, in its argument check or with the error of its `CALL`, or reads its outcome from a result. -/
theorem CardOp.outcome_cases (c : CardOp) (e : Ending) :
    (∃ k, c.outcome e = .failed k) ∨ ∃ r, e = .result r ∧ c.outcome e = c.resultOutcome r := by
  cases hreq : c.request with
  | error k => exact .inl ⟨k, outcome_of_error hreq e⟩
  | ok x =>
    cases e with
    | raised k => exact .inl ⟨k, outcome_raised hreq k⟩
    | result r => exact .inr ⟨r, rfl, outcome_result hreq r⟩

/-- Only the rules of `discover_target` and `read_block` read bytes that a result may not have (U13, N11, log 12). -/
theorem CardOp.resultOutcome_no_channel {c : CardOp} {r : Result} (hr : r ≠ .ackSentinel)
    (h : (c.resultOutcome r).channel = none) :
    ∃ res, r = .bytes res ∧ ((∃ profile, c = .discoverTarget profile) ∨ ∃ blk, c = .readBlock blk) := by
  cases r with
  | ackSentinel => exact absurd rfl hr
  | noTarget => cases c <;> cases h
  | bytes res =>
    refine ⟨res, rfl, ?_⟩
    cases c with
    | discoverTarget profile => exact .inl ⟨profile, rfl⟩
    | readBlock blk => exact .inr ⟨blk, rfl⟩
    | getFirmwareVersion => cases res <;> cases h
    | configureReader | authenticateBlock | writeBlock => cases h

theorem CardOp.outcome_no_channel {c : CardOp} {e : Ending} (he : e ≠ .result .ackSentinel)
    (h : (c.outcome e).channel = none) :
    ∃ res, e = .result (.bytes res) ∧ ((∃ profile, c = .discoverTarget profile) ∨ ∃ blk, c = .readBlock blk) := by
  rcases c.outcome_cases e with ⟨k, hk⟩ | ⟨r, rfl, hr⟩
  · rw [hk] at h
    cases h
  · rw [hr] at h
    obtain ⟨res, rfl, hc⟩ := resultOutcome_no_channel (fun hsent => he (congrArg _ hsent)) h
    exact ⟨res, rfl, hc⟩

/-! Initialize (R229, R284, log 16, log 23) -/

theorem steps_cons {s t : State} {turn : Turn} {rest : List Turn} (hs : s.sched = turn :: rest)
    (h : applyTurn Config.params turn { s with sched := rest } = .next t) (n : Nat) :
    steps (n + 1) s = steps n t := steps_succ ((step_cons hs).trans h)

/-- The state a reset leaves and `INIT` then completes in, with `rest` still to come. -/
def afterInit (rxq : Bytes) (rest : List Turn) (s : State) : State :=
  { State.reset with
    op := 6#3, opl := 6#3, inited := true, rkind := .bytes, done := true, hist := [.write Config.params.wakeup],
    rxq := rxq, stop := s.stop, sched := rest, freeCount := s.freeCount }

theorem step_start_init {s : State} {rest : List Turn} (hs : s.sched = .hostWrite 4 1 :: rest)
    (hop : s.op = Config.opInit) : step s = exec .init { s with sched := rest } := by
  obtain ⟨hstart, -⟩ := stepRunsTheDecodedInstruction s rest .init
  exact hstart 1 hs rfl (by rw [hop]; rfl)

/-- The first three turns of an initialize: reset, `OP = 6`, START. -/
theorem steps_reset_init {s : State} {rxq : Bytes} {rest : List Turn}
    (hs : s.sched = .reset rxq :: .hostWrite 0 Config.opInit.toNat :: .hostWrite 4 1 :: rest) (n : Nat) :
    steps (n + 3) s = steps n (afterInit rxq rest s) :=
  calc steps (n + 3) s
    _ = steps (n + 2) { applyReset rxq s with sched := _ :: _ :: rest } := steps_cons hs rfl _
    _ = steps (n + 1) { applyReset rxq s with op := Config.opInit, sched := .hostWrite 4 1 :: rest } :=
      steps_cons rfl rfl _
    _ = steps n (afterInit rxq rest s) := steps_succ ((step_start_init rfl rfl).trans (initCompletes _ rfl))

section
variable {s : State} (hidle : s.busy = false)
include hidle

theorem hostWriteReg_ackTimeoutMs (v : BitVec 16) :
    hostWriteReg 2 v.toNat s = .next { s with ackTimeoutMs := v } := by
  obtain ⟨-, -, hwrite⟩ := hostWritesSetOperands
  obtain ⟨-, -, htimeout, -⟩ := hwrite s v.toNat hidle
  rw [htimeout, BitVec.ofNat_toNat, BitVec.setWidth_eq]

theorem hostWriteReg_retryIntervalMs (v : BitVec 16) :
    hostWriteReg 3 v.toNat s = .next { s with retryIntervalMs := v } := by
  obtain ⟨-, -, hwrite⟩ := hostWritesSetOperands
  obtain ⟨-, -, -, hinterval, -⟩ := hwrite s v.toNat hidle
  rw [hinterval, BitVec.ofNat_toNat, BitVec.setWidth_eq]

theorem steps_write_ackTimeoutMs {o : Option (BitVec 16)} {rest : List Turn}
    (hs : s.sched = writeIfGiven 2 o ++ rest) (n : Nat) :
    steps (n + (writeIfGiven 2 o).length) s =
      steps n { s with ackTimeoutMs := o.getD s.ackTimeoutMs, sched := rest } := by
  cases o with
  | none =>
    obtain rfl : s.sched = rest := hs
    rfl
  | some v => exact steps_cons hs (hostWriteReg_ackTimeoutMs (s := { s with sched := rest }) hidle v) n

theorem steps_write_retryIntervalMs {o : Option (BitVec 16)} {rest : List Turn}
    (hs : s.sched = writeIfGiven 3 o ++ rest) (n : Nat) :
    steps (n + (writeIfGiven 3 o).length) s =
      steps n { s with retryIntervalMs := o.getD s.retryIntervalMs, sched := rest } := by
  cases o with
  | none =>
    obtain rfl : s.sched = rest := hs
    rfl
  | some v => exact steps_cons hs (hostWriteReg_retryIntervalMs (s := { s with sched := rest }) hidle v) n

end

theorem steps_initializeTurns {s : State} {rxq : Bytes} {o : InitOptions} {rest : List Turn}
    (hs : s.sched = initializeTurns rxq o ++ rest) :
    steps (initializeTurns rxq o).length s = .next { afterInit rxq rest s with
      ackTimeoutMs := o.ackTimeoutMs.getD Config.params.ackTimeoutDefault
      retryIntervalMs := o.retryIntervalMs.getD Config.params.retryIntervalDefault } := by
  have hlen : (initializeTurns rxq o).length =
      0 + (writeIfGiven 3 o.retryIntervalMs).length + (writeIfGiven 2 o.ackTimeoutMs).length + 3 := by
    simp only [initializeTurns, List.length_append, List.length_cons, List.length_nil]
    omega
  rw [initializeTurns, List.append_assoc, List.append_assoc] at hs
  rw [hlen, steps_reset_init hs, steps_write_ackTimeoutMs rfl rfl, steps_write_retryIntervalMs rfl rfl]
  rfl

theorem initializeDriver_ops (rxq : Bytes) (o : InitOptions) :
    (CardOp.getFirmwareVersion ∈ (Exposed.initializeDriver rxq o).ops ↔ o.checkVersion = true) ∧
    (CardOp.configureReader ∈ (Exposed.initializeDriver rxq o).ops ↔ o.configure = true) := by
  simp [Exposed.ops]

/-- Settles O60: the requests, the outcomes function by function, the sentinel, the errors and the channels, and
initialize. -/
theorem consumerOutcomes : Obligations.ConsumerOutcomes := by
  refine ⟨rfl, rfl, fun _ => rfl, fun uid blk kt key => ⟨uid.short, key.length_toList, rfl⟩, fun _ => rfl,
    fun blk d => ⟨fun hd => CardOp.turn_of_request (writeBlock_request hd blk), fun hd => ?_⟩,
    fun _ _ => rfl, rfl, rfl, fun _ => rfl,
    fun profile => ⟨fun b res hb => targetOutcome_of_count hb res, fun a1 a2 a3 a4 len rest =>
      ⟨targetOutcome_too_long a1 a2 a3 a4, fun hlen hrest => ⟨_, rfl, targetOutcome_uid a1 a2 a3 a4 hlen hrest⟩⟩⟩,
    fun _ _ _ _ res => flagOutcome_eq_head res,
    fun blk d res hd => (CardOp.outcome_result (writeBlock_request hd blk) _).trans (flagOutcome_eq_head res),
    fun blk b res => ⟨fun hb => readOutcome_of_status hb res, readOutcome_of_block⟩,
    fun c hv hc hturn => ?_, fun c k hturn => ?_, fun c e => CardOp.outcome_no_channel,
    fun s rxq o rest => steps_initializeTurns, fun rxq o => ⟨rfl, initializeDriver_ops rxq o⟩⟩
  · have herror := writeBlock_request_error hd blk
    exact ⟨CardOp.turn_eq_none.mpr ⟨_, herror⟩, CardOp.outcome_of_error herror⟩
  · obtain ⟨x, hx⟩ := CardOp.request_of_turn hturn
    exact (CardOp.outcome_result hx .noTarget).trans (CardOp.resultOutcome_noTarget hv hc)
  · obtain ⟨x, hx⟩ := CardOp.request_of_turn hturn
    exact CardOp.outcome_raised hx k

end Sys2Proof.Machine

/-! The status codes (60_exceptions.md R240, 30_encoding.md R122) -/

namespace Sys2Proof.Machine

/-- Settles O43: the twelve values of `ERR`, then the four of `RKIND`, each read off its table. -/
theorem statusCodes : Obligations.StatusCodes :=
  ⟨rfl, rfl, rfl, rfl, rfl, rfl, rfl, rfl, rfl, rfl, rfl, rfl,
    rfl, rfl, rfl, rfl⟩

end Sys2Proof.Machine

/-! The reset input (70_reset_and_hazards.md R280, R281) -/

namespace Sys2Proof.Machine

/-- A step at a reset turn is the reset, whatever runs. -/
theorem step_reset {s : State} {rxq : Bytes} {rest : List Turn} (hs : s.sched = .reset rxq :: rest) :
    step s = .next (applyReset rxq { s with sched := rest }) := step_cons hs

/-- Settles O39: the step is the reset, which takes `BUSY`, the ending and `PHASE` from the reset state. -/
theorem resetAbandonsTheOperation : Obligations.ResetAbandonsTheOperation :=
  fun s rxq rest hs => ⟨applyReset rxq { s with sched := rest }, step_reset hs, rfl, rfl, rfl, rfl, rfl⟩

end Sys2Proof.Machine
